-- ==== Sys2Proof/Word.lean ====
section
/-! DEFINITION. The two widths of the machine (R12, R14): a data byte and a 16-bit address. Everything that
puts bytes together or takes them apart stands in Decode.lean or under Machine/. -/

namespace Sys2Proof

/-- An 8-bit datum: a register, a memory byte, an operand byte (R12). -/
abbrev Byte := BitVec 8

/-- A 16-bit address (R60), also the width of `PC` (R24). -/
abbrev Addr := BitVec 16

end Sys2Proof
end

