-- ==== Sys2Proof/Syntax.lean ====
section
/-! DEFINITION. The instructions: one constructor per row of spec/opcode_table.json, 256 in all (R95 to R97), named
after the row's mnemonic and mode key (R92), with the opcode byte where the two do not tell rows apart. The argument
is the row's operand: `d` the byte of format `F2`, `a` the 16-bit value `byte2:byte1` of format `F3` (R91). -/

namespace Sys2Proof

/-- An instruction. -/
inductive Instr where
  | oraIzx (d : Byte)  -- 0x01 ORA izx, R186
  | sloIzx (d : Byte)  -- 0x03 SLO izx, R273
  | nopZp04 (d : Byte)  -- 0x04 NOP zp, R271
  | oraZp (d : Byte)  -- 0x05 ORA zp, R186
  | aslZp (d : Byte)  -- 0x06 ASL zp, R201
  | sloZp (d : Byte)  -- 0x07 SLO zp, R273
  | oraImm (d : Byte)  -- 0x09 ORA imm, R186
  | ancImm0B (d : Byte)  -- 0x0B ANC imm, R281
  | nopAbs0C (a : Addr)  -- 0x0C NOP abs, R271
  | oraAbs (a : Addr)  -- 0x0D ORA abs, R186
  | aslAbs (a : Addr)  -- 0x0E ASL abs, R201
  | sloAbs (a : Addr)  -- 0x0F SLO abs, R273
  | bpl (d : Byte)  -- 0x10 BPL rel, R221
  | oraIzy (d : Byte)  -- 0x11 ORA izy, R186
  | sloIzy (d : Byte)  -- 0x13 SLO izy, R273
  | nopZpx14 (d : Byte)  -- 0x14 NOP zpx, R271
  | oraZpx (d : Byte)  -- 0x15 ORA zpx, R186
  | aslZpx (d : Byte)  -- 0x16 ASL zpx, R201
  | sloZpx (d : Byte)  -- 0x17 SLO zpx, R273
  | oraAby (a : Addr)  -- 0x19 ORA aby, R186
  | sloAby (a : Addr)  -- 0x1B SLO aby, R273
  | nopAbx1C (a : Addr)  -- 0x1C NOP abx, R271
  | oraAbx (a : Addr)  -- 0x1D ORA abx, R186
  | aslAbx (a : Addr)  -- 0x1E ASL abx, R201
  | sloAbx (a : Addr)  -- 0x1F SLO abx, R273
  | jsr (a : Addr)  -- 0x20 JSR abs, R231
  | andIzx (d : Byte)  -- 0x21 AND izx, R187
  | rlaIzx (d : Byte)  -- 0x23 RLA izx, R274
  | bitZp (d : Byte)  -- 0x24 BIT zp, R189
  | andZp (d : Byte)  -- 0x25 AND zp, R187
  | rolZp (d : Byte)  -- 0x26 ROL zp, R203
  | rlaZp (d : Byte)  -- 0x27 RLA zp, R274
  | andImm (d : Byte)  -- 0x29 AND imm, R187
  | ancImm2B (d : Byte)  -- 0x2B ANC imm, R281
  | bitAbs (a : Addr)  -- 0x2C BIT abs, R189
  | andAbs (a : Addr)  -- 0x2D AND abs, R187
  | rolAbs (a : Addr)  -- 0x2E ROL abs, R203
  | rlaAbs (a : Addr)  -- 0x2F RLA abs, R274
  | bmi (d : Byte)  -- 0x30 BMI rel, R222
  | andIzy (d : Byte)  -- 0x31 AND izy, R187
  | rlaIzy (d : Byte)  -- 0x33 RLA izy, R274
  | nopZpx34 (d : Byte)  -- 0x34 NOP zpx, R271
  | andZpx (d : Byte)  -- 0x35 AND zpx, R187
  | rolZpx (d : Byte)  -- 0x36 ROL zpx, R203
  | rlaZpx (d : Byte)  -- 0x37 RLA zpx, R274
  | andAby (a : Addr)  -- 0x39 AND aby, R187
  | rlaAby (a : Addr)  -- 0x3B RLA aby, R274
  | nopAbx3C (a : Addr)  -- 0x3C NOP abx, R271
  | andAbx (a : Addr)  -- 0x3D AND abx, R187
  | rolAbx (a : Addr)  -- 0x3E ROL abx, R203
  | rlaAbx (a : Addr)  -- 0x3F RLA abx, R274
  | eorIzx (d : Byte)  -- 0x41 EOR izx, R188
  | sreIzx (d : Byte)  -- 0x43 SRE izx, R275
  | nopZp44 (d : Byte)  -- 0x44 NOP zp, R271
  | eorZp (d : Byte)  -- 0x45 EOR zp, R188
  | lsrZp (d : Byte)  -- 0x46 LSR zp, R202
  | sreZp (d : Byte)  -- 0x47 SRE zp, R275
  | eorImm (d : Byte)  -- 0x49 EOR imm, R188
  | alrImm (d : Byte)  -- 0x4B ALR imm, R282
  | jmpAbs (a : Addr)  -- 0x4C JMP abs, R229
  | eorAbs (a : Addr)  -- 0x4D EOR abs, R188
  | lsrAbs (a : Addr)  -- 0x4E LSR abs, R202
  | sreAbs (a : Addr)  -- 0x4F SRE abs, R275
  | bvc (d : Byte)  -- 0x50 BVC rel, R223
  | eorIzy (d : Byte)  -- 0x51 EOR izy, R188
  | sreIzy (d : Byte)  -- 0x53 SRE izy, R275
  | nopZpx54 (d : Byte)  -- 0x54 NOP zpx, R271
  | eorZpx (d : Byte)  -- 0x55 EOR zpx, R188
  | lsrZpx (d : Byte)  -- 0x56 LSR zpx, R202
  | sreZpx (d : Byte)  -- 0x57 SRE zpx, R275
  | eorAby (a : Addr)  -- 0x59 EOR aby, R188
  | sreAby (a : Addr)  -- 0x5B SRE aby, R275
  | nopAbx5C (a : Addr)  -- 0x5C NOP abx, R271
  | eorAbx (a : Addr)  -- 0x5D EOR abx, R188
  | lsrAbx (a : Addr)  -- 0x5E LSR abx, R202
  | sreAbx (a : Addr)  -- 0x5F SRE abx, R275
  | adcIzx (d : Byte)  -- 0x61 ADC izx, R190
  | rraIzx (d : Byte)  -- 0x63 RRA izx, R276
  | nopZp64 (d : Byte)  -- 0x64 NOP zp, R271
  | adcZp (d : Byte)  -- 0x65 ADC zp, R190
  | rorZp (d : Byte)  -- 0x66 ROR zp, R204
  | rraZp (d : Byte)  -- 0x67 RRA zp, R276
  | adcImm (d : Byte)  -- 0x69 ADC imm, R190
  | arrImm (d : Byte)  -- 0x6B ARR imm, R283
  | jmpInd (a : Addr)  -- 0x6C JMP ind, R230
  | adcAbs (a : Addr)  -- 0x6D ADC abs, R190
  | rorAbs (a : Addr)  -- 0x6E ROR abs, R204
  | rraAbs (a : Addr)  -- 0x6F RRA abs, R276
  | bvs (d : Byte)  -- 0x70 BVS rel, R224
  | adcIzy (d : Byte)  -- 0x71 ADC izy, R190
  | rraIzy (d : Byte)  -- 0x73 RRA izy, R276
  | nopZpx74 (d : Byte)  -- 0x74 NOP zpx, R271
  | adcZpx (d : Byte)  -- 0x75 ADC zpx, R190
  | rorZpx (d : Byte)  -- 0x76 ROR zpx, R204
  | rraZpx (d : Byte)  -- 0x77 RRA zpx, R276
  | adcAby (a : Addr)  -- 0x79 ADC aby, R190
  | rraAby (a : Addr)  -- 0x7B RRA aby, R276
  | nopAbx7C (a : Addr)  -- 0x7C NOP abx, R271
  | adcAbx (a : Addr)  -- 0x7D ADC abx, R190
  | rorAbx (a : Addr)  -- 0x7E ROR abx, R204
  | rraAbx (a : Addr)  -- 0x7F RRA abx, R276
  | nopImm80 (d : Byte)  -- 0x80 NOP imm, R271
  | staIzx (d : Byte)  -- 0x81 STA izx, R163
  | nopImm82 (d : Byte)  -- 0x82 NOP imm, R271
  | saxIzx (d : Byte)  -- 0x83 SAX izx, R277
  | styZp (d : Byte)  -- 0x84 STY zp, R165
  | staZp (d : Byte)  -- 0x85 STA zp, R163
  | stxZp (d : Byte)  -- 0x86 STX zp, R164
  | saxZp (d : Byte)  -- 0x87 SAX zp, R277
  | nopImm89 (d : Byte)  -- 0x89 NOP imm, R271
  | aneImm (d : Byte)  -- 0x8B ANE imm, R286
  | styAbs (a : Addr)  -- 0x8C STY abs, R165
  | staAbs (a : Addr)  -- 0x8D STA abs, R163
  | stxAbs (a : Addr)  -- 0x8E STX abs, R164
  | saxAbs (a : Addr)  -- 0x8F SAX abs, R277
  | bcc (d : Byte)  -- 0x90 BCC rel, R225
  | staIzy (d : Byte)  -- 0x91 STA izy, R163
  | shaIzy (d : Byte)  -- 0x93 SHA izy, R288
  | styZpx (d : Byte)  -- 0x94 STY zpx, R165
  | staZpx (d : Byte)  -- 0x95 STA zpx, R163
  | stxZpy (d : Byte)  -- 0x96 STX zpy, R164
  | saxZpy (d : Byte)  -- 0x97 SAX zpy, R277
  | staAby (a : Addr)  -- 0x99 STA aby, R163
  | tasAby (a : Addr)  -- 0x9B TAS aby, R291
  | shyAbx (a : Addr)  -- 0x9C SHY abx, R290
  | staAbx (a : Addr)  -- 0x9D STA abx, R163
  | shxAby (a : Addr)  -- 0x9E SHX aby, R289
  | shaAby (a : Addr)  -- 0x9F SHA aby, R288
  | ldyImm (d : Byte)  -- 0xA0 LDY imm, R162
  | ldaIzx (d : Byte)  -- 0xA1 LDA izx, R160
  | ldxImm (d : Byte)  -- 0xA2 LDX imm, R161
  | laxIzx (d : Byte)  -- 0xA3 LAX izx, R278
  | ldyZp (d : Byte)  -- 0xA4 LDY zp, R162
  | ldaZp (d : Byte)  -- 0xA5 LDA zp, R160
  | ldxZp (d : Byte)  -- 0xA6 LDX zp, R161
  | laxZp (d : Byte)  -- 0xA7 LAX zp, R278
  | ldaImm (d : Byte)  -- 0xA9 LDA imm, R160
  | lxaImm (d : Byte)  -- 0xAB LXA imm, R287
  | ldyAbs (a : Addr)  -- 0xAC LDY abs, R162
  | ldaAbs (a : Addr)  -- 0xAD LDA abs, R160
  | ldxAbs (a : Addr)  -- 0xAE LDX abs, R161
  | laxAbs (a : Addr)  -- 0xAF LAX abs, R278
  | bcs (d : Byte)  -- 0xB0 BCS rel, R226
  | ldaIzy (d : Byte)  -- 0xB1 LDA izy, R160
  | laxIzy (d : Byte)  -- 0xB3 LAX izy, R278
  | ldyZpx (d : Byte)  -- 0xB4 LDY zpx, R162
  | ldaZpx (d : Byte)  -- 0xB5 LDA zpx, R160
  | ldxZpy (d : Byte)  -- 0xB6 LDX zpy, R161
  | laxZpy (d : Byte)  -- 0xB7 LAX zpy, R278
  | ldaAby (a : Addr)  -- 0xB9 LDA aby, R160
  | lasAby (a : Addr)  -- 0xBB LAS aby, R292
  | ldyAbx (a : Addr)  -- 0xBC LDY abx, R162
  | ldaAbx (a : Addr)  -- 0xBD LDA abx, R160
  | ldxAby (a : Addr)  -- 0xBE LDX aby, R161
  | laxAby (a : Addr)  -- 0xBF LAX aby, R278
  | cpyImm (d : Byte)  -- 0xC0 CPY imm, R194
  | cmpIzx (d : Byte)  -- 0xC1 CMP izx, R192
  | nopImmC2 (d : Byte)  -- 0xC2 NOP imm, R271
  | dcpIzx (d : Byte)  -- 0xC3 DCP izx, R279
  | cpyZp (d : Byte)  -- 0xC4 CPY zp, R194
  | cmpZp (d : Byte)  -- 0xC5 CMP zp, R192
  | decZp (d : Byte)  -- 0xC6 DEC zp, R196
  | dcpZp (d : Byte)  -- 0xC7 DCP zp, R279
  | cmpImm (d : Byte)  -- 0xC9 CMP imm, R192
  | sbxImm (d : Byte)  -- 0xCB SBX imm, R284
  | cpyAbs (a : Addr)  -- 0xCC CPY abs, R194
  | cmpAbs (a : Addr)  -- 0xCD CMP abs, R192
  | decAbs (a : Addr)  -- 0xCE DEC abs, R196
  | dcpAbs (a : Addr)  -- 0xCF DCP abs, R279
  | bne (d : Byte)  -- 0xD0 BNE rel, R227
  | cmpIzy (d : Byte)  -- 0xD1 CMP izy, R192
  | dcpIzy (d : Byte)  -- 0xD3 DCP izy, R279
  | nopZpxD4 (d : Byte)  -- 0xD4 NOP zpx, R271
  | cmpZpx (d : Byte)  -- 0xD5 CMP zpx, R192
  | decZpx (d : Byte)  -- 0xD6 DEC zpx, R196
  | dcpZpx (d : Byte)  -- 0xD7 DCP zpx, R279
  | cmpAby (a : Addr)  -- 0xD9 CMP aby, R192
  | dcpAby (a : Addr)  -- 0xDB DCP aby, R279
  | nopAbxDC (a : Addr)  -- 0xDC NOP abx, R271
  | cmpAbx (a : Addr)  -- 0xDD CMP abx, R192
  | decAbx (a : Addr)  -- 0xDE DEC abx, R196
  | dcpAbx (a : Addr)  -- 0xDF DCP abx, R279
  | cpxImm (d : Byte)  -- 0xE0 CPX imm, R193
  | sbcIzx (d : Byte)  -- 0xE1 SBC izx, R191
  | nopImmE2 (d : Byte)  -- 0xE2 NOP imm, R271
  | iscIzx (d : Byte)  -- 0xE3 ISC izx, R280
  | cpxZp (d : Byte)  -- 0xE4 CPX zp, R193
  | sbcZp (d : Byte)  -- 0xE5 SBC zp, R191
  | incZp (d : Byte)  -- 0xE6 INC zp, R195
  | iscZp (d : Byte)  -- 0xE7 ISC zp, R280
  | sbcImm (d : Byte)  -- 0xE9 SBC imm, R191
  | usbcImm (d : Byte)  -- 0xEB USBC imm, R285
  | cpxAbs (a : Addr)  -- 0xEC CPX abs, R193
  | sbcAbs (a : Addr)  -- 0xED SBC abs, R191
  | incAbs (a : Addr)  -- 0xEE INC abs, R195
  | iscAbs (a : Addr)  -- 0xEF ISC abs, R280
  | beq (d : Byte)  -- 0xF0 BEQ rel, R228
  | sbcIzy (d : Byte)  -- 0xF1 SBC izy, R191
  | iscIzy (d : Byte)  -- 0xF3 ISC izy, R280
  | nopZpxF4 (d : Byte)  -- 0xF4 NOP zpx, R271
  | sbcZpx (d : Byte)  -- 0xF5 SBC zpx, R191
  | incZpx (d : Byte)  -- 0xF6 INC zpx, R195
  | iscZpx (d : Byte)  -- 0xF7 ISC zpx, R280
  | sbcAby (a : Addr)  -- 0xF9 SBC aby, R191
  | iscAby (a : Addr)  -- 0xFB ISC aby, R280
  | nopAbxFC (a : Addr)  -- 0xFC NOP abx, R271
  | sbcAbx (a : Addr)  -- 0xFD SBC abx, R191
  | incAbx (a : Addr)  -- 0xFE INC abx, R195
  | iscAbx (a : Addr)  -- 0xFF ISC abx, R280
  | brk  -- 0x00 BRK imp, R252
  | jam02  -- 0x02 JAM imp, R272
  | php  -- 0x08 PHP imp, R241
  | aslAcc  -- 0x0A ASL acc, R201
  | jam12  -- 0x12 JAM imp, R272
  | clc  -- 0x18 CLC imp, R244
  | nopImp1A  -- 0x1A NOP imp, R271
  | jam22  -- 0x22 JAM imp, R272
  | plp  -- 0x28 PLP imp, R243
  | rolAcc  -- 0x2A ROL acc, R203
  | jam32  -- 0x32 JAM imp, R272
  | sec  -- 0x38 SEC imp, R245
  | nopImp3A  -- 0x3A NOP imp, R271
  | rti  -- 0x40 RTI imp, R253
  | jam42  -- 0x42 JAM imp, R272
  | pha  -- 0x48 PHA imp, R240
  | lsrAcc  -- 0x4A LSR acc, R202
  | jam52  -- 0x52 JAM imp, R272
  | cli  -- 0x58 CLI imp, R246
  | nopImp5A  -- 0x5A NOP imp, R271
  | rts  -- 0x60 RTS imp, R232
  | jam62  -- 0x62 JAM imp, R272
  | pla  -- 0x68 PLA imp, R242
  | rorAcc  -- 0x6A ROR acc, R204
  | jam72  -- 0x72 JAM imp, R272
  | sei  -- 0x78 SEI imp, R247
  | nopImp7A  -- 0x7A NOP imp, R271
  | dey  -- 0x88 DEY imp, R200
  | txa  -- 0x8A TXA imp, R168
  | jam92  -- 0x92 JAM imp, R272
  | tya  -- 0x98 TYA imp, R169
  | txs  -- 0x9A TXS imp, R171
  | tay  -- 0xA8 TAY imp, R167
  | tax  -- 0xAA TAX imp, R166
  | jamB2  -- 0xB2 JAM imp, R272
  | clv  -- 0xB8 CLV imp, R248
  | tsx  -- 0xBA TSX imp, R170
  | iny  -- 0xC8 INY imp, R198
  | dex  -- 0xCA DEX imp, R199
  | jamD2  -- 0xD2 JAM imp, R272
  | cld  -- 0xD8 CLD imp, R249
  | nopImpDA  -- 0xDA NOP imp, R271
  | inx  -- 0xE8 INX imp, R197
  | nop  -- 0xEA NOP imp, R251
  | jamF2  -- 0xF2 JAM imp, R272
  | sed  -- 0xF8 SED imp, R250
  | nopImpFA  -- 0xFA NOP imp, R271
  deriving DecidableEq, Repr

end Sys2Proof
end

