-- ==== Sys2Proof/WellFormed.lean ====
section
/-! DEFINITION. Well-formed encodings: a byte string is one whole instruction exactly when it is an opcode byte and as
many operand bytes as that opcode byte alone decides (R90, R91). Every operand value is legal (R92), so nothing else
is checked, and every term of `Instr` encodes to a well-formed string. -/

namespace Sys2Proof

/-- The length of the instruction of each opcode byte, sixteen to a row (R90, R96). -/
def lengthTable : List (List Nat) :=
  [ [1, 2, 1, 2, 2, 2, 2, 2, 1, 2, 1, 2, 3, 3, 3, 3],
    [2, 2, 1, 2, 2, 2, 2, 2, 1, 3, 1, 3, 3, 3, 3, 3],
    [3, 2, 1, 2, 2, 2, 2, 2, 1, 2, 1, 2, 3, 3, 3, 3],
    [2, 2, 1, 2, 2, 2, 2, 2, 1, 3, 1, 3, 3, 3, 3, 3],
    [1, 2, 1, 2, 2, 2, 2, 2, 1, 2, 1, 2, 3, 3, 3, 3],
    [2, 2, 1, 2, 2, 2, 2, 2, 1, 3, 1, 3, 3, 3, 3, 3],
    [1, 2, 1, 2, 2, 2, 2, 2, 1, 2, 1, 2, 3, 3, 3, 3],
    [2, 2, 1, 2, 2, 2, 2, 2, 1, 3, 1, 3, 3, 3, 3, 3],
    [2, 2, 2, 2, 2, 2, 2, 2, 1, 2, 1, 2, 3, 3, 3, 3],
    [2, 2, 1, 2, 2, 2, 2, 2, 1, 3, 1, 3, 3, 3, 3, 3],
    [2, 2, 2, 2, 2, 2, 2, 2, 1, 2, 1, 2, 3, 3, 3, 3],
    [2, 2, 1, 2, 2, 2, 2, 2, 1, 3, 1, 3, 3, 3, 3, 3],
    [2, 2, 2, 2, 2, 2, 2, 2, 1, 2, 1, 2, 3, 3, 3, 3],
    [2, 2, 1, 2, 2, 2, 2, 2, 1, 3, 1, 3, 3, 3, 3, 3],
    [2, 2, 2, 2, 2, 2, 2, 2, 1, 2, 1, 2, 3, 3, 3, 3],
    [2, 2, 1, 2, 2, 2, 2, 2, 1, 3, 1, 3, 3, 3, 3, 3] ]

/-- The length an opcode byte decides: 1, 2 or 3 (R90). -/
def opLength (op : Byte) : Nat := (lengthTable.getD (op.toNat / 16) []).getD (op.toNat % 16) 1

/-- The bytes are one whole instruction: an opcode byte and its operand bytes, no fewer and no more. -/
def bytesWellFormed : List Byte → Bool
  | [] => false
  | op :: operands => operands.length + 1 == opLength op

end Sys2Proof
end

