-- ==== Sys2Proof/Decode.lean ====
section
/-! DEFINITION. The byte-order helpers (R68), the 256-entry opcode table (R35, R95, R96, R97), the decoder, which is
total on any bytes, and after it the encoder. -/

namespace Sys2Proof

/-- `hi:lo`, the address of two bytes (R14, R68). -/
def mkAddr (hi lo : Byte) : Addr := hi ++ lo

/-- `v[15:8]` (R14, R15). -/
def hiByte (a : Addr) : Byte := a.extractLsb' 8 8

/-- `v[7:0]` (R14, R15). -/
def loByte (a : Addr) : Byte := a.extractLsb' 0 8

/-- An entry of the opcode table: an instruction whole (`F1`), or one that waits for its operand byte (`F2`) or its
two operand bytes (`F3`) (R91). -/
inductive Form where
  | f1 (i : Instr)
  | f2 (mk : Byte → Instr)
  | f3 (mk : Addr → Instr)

/-- Row `0x` of R96's matrix. -/
def opcodeRow0 : List Form :=
  [ .f1 .brk, .f2 .oraIzx, .f1 .jam02, .f2 .sloIzx,
    .f2 .nopZp04, .f2 .oraZp, .f2 .aslZp, .f2 .sloZp,
    .f1 .php, .f2 .oraImm, .f1 .aslAcc, .f2 .ancImm0B,
    .f3 .nopAbs0C, .f3 .oraAbs, .f3 .aslAbs, .f3 .sloAbs ]

/-- Row `1x` of R96's matrix. -/
def opcodeRow1 : List Form :=
  [ .f2 .bpl, .f2 .oraIzy, .f1 .jam12, .f2 .sloIzy,
    .f2 .nopZpx14, .f2 .oraZpx, .f2 .aslZpx, .f2 .sloZpx,
    .f1 .clc, .f3 .oraAby, .f1 .nopImp1A, .f3 .sloAby,
    .f3 .nopAbx1C, .f3 .oraAbx, .f3 .aslAbx, .f3 .sloAbx ]

/-- Row `2x` of R96's matrix. -/
def opcodeRow2 : List Form :=
  [ .f3 .jsr, .f2 .andIzx, .f1 .jam22, .f2 .rlaIzx,
    .f2 .bitZp, .f2 .andZp, .f2 .rolZp, .f2 .rlaZp,
    .f1 .plp, .f2 .andImm, .f1 .rolAcc, .f2 .ancImm2B,
    .f3 .bitAbs, .f3 .andAbs, .f3 .rolAbs, .f3 .rlaAbs ]

/-- Row `3x` of R96's matrix. -/
def opcodeRow3 : List Form :=
  [ .f2 .bmi, .f2 .andIzy, .f1 .jam32, .f2 .rlaIzy,
    .f2 .nopZpx34, .f2 .andZpx, .f2 .rolZpx, .f2 .rlaZpx,
    .f1 .sec, .f3 .andAby, .f1 .nopImp3A, .f3 .rlaAby,
    .f3 .nopAbx3C, .f3 .andAbx, .f3 .rolAbx, .f3 .rlaAbx ]

/-- Row `4x` of R96's matrix. -/
def opcodeRow4 : List Form :=
  [ .f1 .rti, .f2 .eorIzx, .f1 .jam42, .f2 .sreIzx,
    .f2 .nopZp44, .f2 .eorZp, .f2 .lsrZp, .f2 .sreZp,
    .f1 .pha, .f2 .eorImm, .f1 .lsrAcc, .f2 .alrImm,
    .f3 .jmpAbs, .f3 .eorAbs, .f3 .lsrAbs, .f3 .sreAbs ]

/-- Row `5x` of R96's matrix. -/
def opcodeRow5 : List Form :=
  [ .f2 .bvc, .f2 .eorIzy, .f1 .jam52, .f2 .sreIzy,
    .f2 .nopZpx54, .f2 .eorZpx, .f2 .lsrZpx, .f2 .sreZpx,
    .f1 .cli, .f3 .eorAby, .f1 .nopImp5A, .f3 .sreAby,
    .f3 .nopAbx5C, .f3 .eorAbx, .f3 .lsrAbx, .f3 .sreAbx ]

/-- Row `6x` of R96's matrix. -/
def opcodeRow6 : List Form :=
  [ .f1 .rts, .f2 .adcIzx, .f1 .jam62, .f2 .rraIzx,
    .f2 .nopZp64, .f2 .adcZp, .f2 .rorZp, .f2 .rraZp,
    .f1 .pla, .f2 .adcImm, .f1 .rorAcc, .f2 .arrImm,
    .f3 .jmpInd, .f3 .adcAbs, .f3 .rorAbs, .f3 .rraAbs ]

/-- Row `7x` of R96's matrix. -/
def opcodeRow7 : List Form :=
  [ .f2 .bvs, .f2 .adcIzy, .f1 .jam72, .f2 .rraIzy,
    .f2 .nopZpx74, .f2 .adcZpx, .f2 .rorZpx, .f2 .rraZpx,
    .f1 .sei, .f3 .adcAby, .f1 .nopImp7A, .f3 .rraAby,
    .f3 .nopAbx7C, .f3 .adcAbx, .f3 .rorAbx, .f3 .rraAbx ]

/-- Row `8x` of R96's matrix. -/
def opcodeRow8 : List Form :=
  [ .f2 .nopImm80, .f2 .staIzx, .f2 .nopImm82, .f2 .saxIzx,
    .f2 .styZp, .f2 .staZp, .f2 .stxZp, .f2 .saxZp,
    .f1 .dey, .f2 .nopImm89, .f1 .txa, .f2 .aneImm,
    .f3 .styAbs, .f3 .staAbs, .f3 .stxAbs, .f3 .saxAbs ]

/-- Row `9x` of R96's matrix. -/
def opcodeRow9 : List Form :=
  [ .f2 .bcc, .f2 .staIzy, .f1 .jam92, .f2 .shaIzy,
    .f2 .styZpx, .f2 .staZpx, .f2 .stxZpy, .f2 .saxZpy,
    .f1 .tya, .f3 .staAby, .f1 .txs, .f3 .tasAby,
    .f3 .shyAbx, .f3 .staAbx, .f3 .shxAby, .f3 .shaAby ]

/-- Row `Ax` of R96's matrix. -/
def opcodeRowA : List Form :=
  [ .f2 .ldyImm, .f2 .ldaIzx, .f2 .ldxImm, .f2 .laxIzx,
    .f2 .ldyZp, .f2 .ldaZp, .f2 .ldxZp, .f2 .laxZp,
    .f1 .tay, .f2 .ldaImm, .f1 .tax, .f2 .lxaImm,
    .f3 .ldyAbs, .f3 .ldaAbs, .f3 .ldxAbs, .f3 .laxAbs ]

/-- Row `Bx` of R96's matrix. -/
def opcodeRowB : List Form :=
  [ .f2 .bcs, .f2 .ldaIzy, .f1 .jamB2, .f2 .laxIzy,
    .f2 .ldyZpx, .f2 .ldaZpx, .f2 .ldxZpy, .f2 .laxZpy,
    .f1 .clv, .f3 .ldaAby, .f1 .tsx, .f3 .lasAby,
    .f3 .ldyAbx, .f3 .ldaAbx, .f3 .ldxAby, .f3 .laxAby ]

/-- Row `Cx` of R96's matrix. -/
def opcodeRowC : List Form :=
  [ .f2 .cpyImm, .f2 .cmpIzx, .f2 .nopImmC2, .f2 .dcpIzx,
    .f2 .cpyZp, .f2 .cmpZp, .f2 .decZp, .f2 .dcpZp,
    .f1 .iny, .f2 .cmpImm, .f1 .dex, .f2 .sbxImm,
    .f3 .cpyAbs, .f3 .cmpAbs, .f3 .decAbs, .f3 .dcpAbs ]

/-- Row `Dx` of R96's matrix. -/
def opcodeRowD : List Form :=
  [ .f2 .bne, .f2 .cmpIzy, .f1 .jamD2, .f2 .dcpIzy,
    .f2 .nopZpxD4, .f2 .cmpZpx, .f2 .decZpx, .f2 .dcpZpx,
    .f1 .cld, .f3 .cmpAby, .f1 .nopImpDA, .f3 .dcpAby,
    .f3 .nopAbxDC, .f3 .cmpAbx, .f3 .decAbx, .f3 .dcpAbx ]

/-- Row `Ex` of R96's matrix. -/
def opcodeRowE : List Form :=
  [ .f2 .cpxImm, .f2 .sbcIzx, .f2 .nopImmE2, .f2 .iscIzx,
    .f2 .cpxZp, .f2 .sbcZp, .f2 .incZp, .f2 .iscZp,
    .f1 .inx, .f2 .sbcImm, .f1 .nop, .f2 .usbcImm,
    .f3 .cpxAbs, .f3 .sbcAbs, .f3 .incAbs, .f3 .iscAbs ]

/-- Row `Fx` of R96's matrix. -/
def opcodeRowF : List Form :=
  [ .f2 .beq, .f2 .sbcIzy, .f1 .jamF2, .f2 .iscIzy,
    .f2 .nopZpxF4, .f2 .sbcZpx, .f2 .incZpx, .f2 .iscZpx,
    .f1 .sed, .f3 .sbcAby, .f1 .nopImpFA, .f3 .iscAby,
    .f3 .nopAbxFC, .f3 .sbcAbx, .f3 .incAbx, .f3 .iscAbx ]

/-- The opcode table (R35, R95): row = high nibble, place in the row = low nibble. -/
def opcodeTable : List Form :=
  opcodeRow0 ++ opcodeRow1 ++ opcodeRow2 ++ opcodeRow3 ++ opcodeRow4 ++ opcodeRow5 ++ opcodeRow6 ++ opcodeRow7 ++
    opcodeRow8 ++ opcodeRow9 ++ opcodeRowA ++ opcodeRowB ++ opcodeRowC ++ opcodeRowD ++ opcodeRowE ++ opcodeRowF

/-- Why a byte string is not decoded. -/
inductive DecodeError where
  /-- No byte at all. -/
  | empty
  /-- Fewer operand bytes than the opcode byte decides (R90). -/
  | truncated (op : Byte)
  /-- No entry for the opcode byte, which the table's 256 entries rule out (R95). -/
  | noEntry (op : Byte)
  deriving DecidableEq, Repr

/-- Complete an entry with the operand bytes that follow the opcode byte. -/
def Form.complete (f : Form) (op : Byte) (rest : List Byte) : Except DecodeError (Instr × List Byte) :=
  match f, rest with
  | .f1 i, rest => .ok (i, rest)
  | .f2 mk, d :: rest => .ok (mk d, rest)
  | .f2 _, [] => .error (.truncated op)
  | .f3 mk, lo :: hi :: rest => .ok (mk (mkAddr hi lo), rest)
  | .f3 _, [_] => .error (.truncated op)
  | .f3 _, [] => .error (.truncated op)

/-- The decoder (R90, R95): the instruction at the front of a byte string, and the bytes after it. -/
def decode : List Byte → Except DecodeError (Instr × List Byte)
  | [] => .error .empty
  | op :: rest =>
    match opcodeTable[op.toNat]? with
    | some f => f.complete op rest
    | none => .error (.noEntry op)

/-- The bytes of a number, the least significant first. -/
def wordBytes (n w : Nat) : List Byte := (List.range n).map (fun k => BitVec.ofNat 8 (w / 256 ^ k))

/-- The three bytes of an opcode-table word: the bits above `nbits` are 0. -/
def tableWordBytes (nbits w : Nat) : List Byte := wordBytes 3 (w % 2 ^ nbits)

/-- What the decoder reads from an opcode-table word. -/
def decodeTableWord (nbits w : Nat) : Option Instr :=
  match decode (tableWordBytes nbits w) with
  | .ok (i, _) => some i
  | .error _ => none

/-- The encoder: the bytes of an instruction, from the opcode lists of R96 and R97 and the formats of R91. -/
def encode : Instr → List Byte
  | .brk => [0x00#8]
  | .oraIzx d => [0x01#8, d]
  | .jam02 => [0x02#8]
  | .sloIzx d => [0x03#8, d]
  | .nopZp04 d => [0x04#8, d]
  | .oraZp d => [0x05#8, d]
  | .aslZp d => [0x06#8, d]
  | .sloZp d => [0x07#8, d]
  | .php => [0x08#8]
  | .oraImm d => [0x09#8, d]
  | .aslAcc => [0x0A#8]
  | .ancImm0B d => [0x0B#8, d]
  | .nopAbs0C a => [0x0C#8, loByte a, hiByte a]
  | .oraAbs a => [0x0D#8, loByte a, hiByte a]
  | .aslAbs a => [0x0E#8, loByte a, hiByte a]
  | .sloAbs a => [0x0F#8, loByte a, hiByte a]
  | .bpl d => [0x10#8, d]
  | .oraIzy d => [0x11#8, d]
  | .jam12 => [0x12#8]
  | .sloIzy d => [0x13#8, d]
  | .nopZpx14 d => [0x14#8, d]
  | .oraZpx d => [0x15#8, d]
  | .aslZpx d => [0x16#8, d]
  | .sloZpx d => [0x17#8, d]
  | .clc => [0x18#8]
  | .oraAby a => [0x19#8, loByte a, hiByte a]
  | .nopImp1A => [0x1A#8]
  | .sloAby a => [0x1B#8, loByte a, hiByte a]
  | .nopAbx1C a => [0x1C#8, loByte a, hiByte a]
  | .oraAbx a => [0x1D#8, loByte a, hiByte a]
  | .aslAbx a => [0x1E#8, loByte a, hiByte a]
  | .sloAbx a => [0x1F#8, loByte a, hiByte a]
  | .jsr a => [0x20#8, loByte a, hiByte a]
  | .andIzx d => [0x21#8, d]
  | .jam22 => [0x22#8]
  | .rlaIzx d => [0x23#8, d]
  | .bitZp d => [0x24#8, d]
  | .andZp d => [0x25#8, d]
  | .rolZp d => [0x26#8, d]
  | .rlaZp d => [0x27#8, d]
  | .plp => [0x28#8]
  | .andImm d => [0x29#8, d]
  | .rolAcc => [0x2A#8]
  | .ancImm2B d => [0x2B#8, d]
  | .bitAbs a => [0x2C#8, loByte a, hiByte a]
  | .andAbs a => [0x2D#8, loByte a, hiByte a]
  | .rolAbs a => [0x2E#8, loByte a, hiByte a]
  | .rlaAbs a => [0x2F#8, loByte a, hiByte a]
  | .bmi d => [0x30#8, d]
  | .andIzy d => [0x31#8, d]
  | .jam32 => [0x32#8]
  | .rlaIzy d => [0x33#8, d]
  | .nopZpx34 d => [0x34#8, d]
  | .andZpx d => [0x35#8, d]
  | .rolZpx d => [0x36#8, d]
  | .rlaZpx d => [0x37#8, d]
  | .sec => [0x38#8]
  | .andAby a => [0x39#8, loByte a, hiByte a]
  | .nopImp3A => [0x3A#8]
  | .rlaAby a => [0x3B#8, loByte a, hiByte a]
  | .nopAbx3C a => [0x3C#8, loByte a, hiByte a]
  | .andAbx a => [0x3D#8, loByte a, hiByte a]
  | .rolAbx a => [0x3E#8, loByte a, hiByte a]
  | .rlaAbx a => [0x3F#8, loByte a, hiByte a]
  | .rti => [0x40#8]
  | .eorIzx d => [0x41#8, d]
  | .jam42 => [0x42#8]
  | .sreIzx d => [0x43#8, d]
  | .nopZp44 d => [0x44#8, d]
  | .eorZp d => [0x45#8, d]
  | .lsrZp d => [0x46#8, d]
  | .sreZp d => [0x47#8, d]
  | .pha => [0x48#8]
  | .eorImm d => [0x49#8, d]
  | .lsrAcc => [0x4A#8]
  | .alrImm d => [0x4B#8, d]
  | .jmpAbs a => [0x4C#8, loByte a, hiByte a]
  | .eorAbs a => [0x4D#8, loByte a, hiByte a]
  | .lsrAbs a => [0x4E#8, loByte a, hiByte a]
  | .sreAbs a => [0x4F#8, loByte a, hiByte a]
  | .bvc d => [0x50#8, d]
  | .eorIzy d => [0x51#8, d]
  | .jam52 => [0x52#8]
  | .sreIzy d => [0x53#8, d]
  | .nopZpx54 d => [0x54#8, d]
  | .eorZpx d => [0x55#8, d]
  | .lsrZpx d => [0x56#8, d]
  | .sreZpx d => [0x57#8, d]
  | .cli => [0x58#8]
  | .eorAby a => [0x59#8, loByte a, hiByte a]
  | .nopImp5A => [0x5A#8]
  | .sreAby a => [0x5B#8, loByte a, hiByte a]
  | .nopAbx5C a => [0x5C#8, loByte a, hiByte a]
  | .eorAbx a => [0x5D#8, loByte a, hiByte a]
  | .lsrAbx a => [0x5E#8, loByte a, hiByte a]
  | .sreAbx a => [0x5F#8, loByte a, hiByte a]
  | .rts => [0x60#8]
  | .adcIzx d => [0x61#8, d]
  | .jam62 => [0x62#8]
  | .rraIzx d => [0x63#8, d]
  | .nopZp64 d => [0x64#8, d]
  | .adcZp d => [0x65#8, d]
  | .rorZp d => [0x66#8, d]
  | .rraZp d => [0x67#8, d]
  | .pla => [0x68#8]
  | .adcImm d => [0x69#8, d]
  | .rorAcc => [0x6A#8]
  | .arrImm d => [0x6B#8, d]
  | .jmpInd a => [0x6C#8, loByte a, hiByte a]
  | .adcAbs a => [0x6D#8, loByte a, hiByte a]
  | .rorAbs a => [0x6E#8, loByte a, hiByte a]
  | .rraAbs a => [0x6F#8, loByte a, hiByte a]
  | .bvs d => [0x70#8, d]
  | .adcIzy d => [0x71#8, d]
  | .jam72 => [0x72#8]
  | .rraIzy d => [0x73#8, d]
  | .nopZpx74 d => [0x74#8, d]
  | .adcZpx d => [0x75#8, d]
  | .rorZpx d => [0x76#8, d]
  | .rraZpx d => [0x77#8, d]
  | .sei => [0x78#8]
  | .adcAby a => [0x79#8, loByte a, hiByte a]
  | .nopImp7A => [0x7A#8]
  | .rraAby a => [0x7B#8, loByte a, hiByte a]
  | .nopAbx7C a => [0x7C#8, loByte a, hiByte a]
  | .adcAbx a => [0x7D#8, loByte a, hiByte a]
  | .rorAbx a => [0x7E#8, loByte a, hiByte a]
  | .rraAbx a => [0x7F#8, loByte a, hiByte a]
  | .nopImm80 d => [0x80#8, d]
  | .staIzx d => [0x81#8, d]
  | .nopImm82 d => [0x82#8, d]
  | .saxIzx d => [0x83#8, d]
  | .styZp d => [0x84#8, d]
  | .staZp d => [0x85#8, d]
  | .stxZp d => [0x86#8, d]
  | .saxZp d => [0x87#8, d]
  | .dey => [0x88#8]
  | .nopImm89 d => [0x89#8, d]
  | .txa => [0x8A#8]
  | .aneImm d => [0x8B#8, d]
  | .styAbs a => [0x8C#8, loByte a, hiByte a]
  | .staAbs a => [0x8D#8, loByte a, hiByte a]
  | .stxAbs a => [0x8E#8, loByte a, hiByte a]
  | .saxAbs a => [0x8F#8, loByte a, hiByte a]
  | .bcc d => [0x90#8, d]
  | .staIzy d => [0x91#8, d]
  | .jam92 => [0x92#8]
  | .shaIzy d => [0x93#8, d]
  | .styZpx d => [0x94#8, d]
  | .staZpx d => [0x95#8, d]
  | .stxZpy d => [0x96#8, d]
  | .saxZpy d => [0x97#8, d]
  | .tya => [0x98#8]
  | .staAby a => [0x99#8, loByte a, hiByte a]
  | .txs => [0x9A#8]
  | .tasAby a => [0x9B#8, loByte a, hiByte a]
  | .shyAbx a => [0x9C#8, loByte a, hiByte a]
  | .staAbx a => [0x9D#8, loByte a, hiByte a]
  | .shxAby a => [0x9E#8, loByte a, hiByte a]
  | .shaAby a => [0x9F#8, loByte a, hiByte a]
  | .ldyImm d => [0xA0#8, d]
  | .ldaIzx d => [0xA1#8, d]
  | .ldxImm d => [0xA2#8, d]
  | .laxIzx d => [0xA3#8, d]
  | .ldyZp d => [0xA4#8, d]
  | .ldaZp d => [0xA5#8, d]
  | .ldxZp d => [0xA6#8, d]
  | .laxZp d => [0xA7#8, d]
  | .tay => [0xA8#8]
  | .ldaImm d => [0xA9#8, d]
  | .tax => [0xAA#8]
  | .lxaImm d => [0xAB#8, d]
  | .ldyAbs a => [0xAC#8, loByte a, hiByte a]
  | .ldaAbs a => [0xAD#8, loByte a, hiByte a]
  | .ldxAbs a => [0xAE#8, loByte a, hiByte a]
  | .laxAbs a => [0xAF#8, loByte a, hiByte a]
  | .bcs d => [0xB0#8, d]
  | .ldaIzy d => [0xB1#8, d]
  | .jamB2 => [0xB2#8]
  | .laxIzy d => [0xB3#8, d]
  | .ldyZpx d => [0xB4#8, d]
  | .ldaZpx d => [0xB5#8, d]
  | .ldxZpy d => [0xB6#8, d]
  | .laxZpy d => [0xB7#8, d]
  | .clv => [0xB8#8]
  | .ldaAby a => [0xB9#8, loByte a, hiByte a]
  | .tsx => [0xBA#8]
  | .lasAby a => [0xBB#8, loByte a, hiByte a]
  | .ldyAbx a => [0xBC#8, loByte a, hiByte a]
  | .ldaAbx a => [0xBD#8, loByte a, hiByte a]
  | .ldxAby a => [0xBE#8, loByte a, hiByte a]
  | .laxAby a => [0xBF#8, loByte a, hiByte a]
  | .cpyImm d => [0xC0#8, d]
  | .cmpIzx d => [0xC1#8, d]
  | .nopImmC2 d => [0xC2#8, d]
  | .dcpIzx d => [0xC3#8, d]
  | .cpyZp d => [0xC4#8, d]
  | .cmpZp d => [0xC5#8, d]
  | .decZp d => [0xC6#8, d]
  | .dcpZp d => [0xC7#8, d]
  | .iny => [0xC8#8]
  | .cmpImm d => [0xC9#8, d]
  | .dex => [0xCA#8]
  | .sbxImm d => [0xCB#8, d]
  | .cpyAbs a => [0xCC#8, loByte a, hiByte a]
  | .cmpAbs a => [0xCD#8, loByte a, hiByte a]
  | .decAbs a => [0xCE#8, loByte a, hiByte a]
  | .dcpAbs a => [0xCF#8, loByte a, hiByte a]
  | .bne d => [0xD0#8, d]
  | .cmpIzy d => [0xD1#8, d]
  | .jamD2 => [0xD2#8]
  | .dcpIzy d => [0xD3#8, d]
  | .nopZpxD4 d => [0xD4#8, d]
  | .cmpZpx d => [0xD5#8, d]
  | .decZpx d => [0xD6#8, d]
  | .dcpZpx d => [0xD7#8, d]
  | .cld => [0xD8#8]
  | .cmpAby a => [0xD9#8, loByte a, hiByte a]
  | .nopImpDA => [0xDA#8]
  | .dcpAby a => [0xDB#8, loByte a, hiByte a]
  | .nopAbxDC a => [0xDC#8, loByte a, hiByte a]
  | .cmpAbx a => [0xDD#8, loByte a, hiByte a]
  | .decAbx a => [0xDE#8, loByte a, hiByte a]
  | .dcpAbx a => [0xDF#8, loByte a, hiByte a]
  | .cpxImm d => [0xE0#8, d]
  | .sbcIzx d => [0xE1#8, d]
  | .nopImmE2 d => [0xE2#8, d]
  | .iscIzx d => [0xE3#8, d]
  | .cpxZp d => [0xE4#8, d]
  | .sbcZp d => [0xE5#8, d]
  | .incZp d => [0xE6#8, d]
  | .iscZp d => [0xE7#8, d]
  | .inx => [0xE8#8]
  | .sbcImm d => [0xE9#8, d]
  | .nop => [0xEA#8]
  | .usbcImm d => [0xEB#8, d]
  | .cpxAbs a => [0xEC#8, loByte a, hiByte a]
  | .sbcAbs a => [0xED#8, loByte a, hiByte a]
  | .incAbs a => [0xEE#8, loByte a, hiByte a]
  | .iscAbs a => [0xEF#8, loByte a, hiByte a]
  | .beq d => [0xF0#8, d]
  | .sbcIzy d => [0xF1#8, d]
  | .jamF2 => [0xF2#8]
  | .iscIzy d => [0xF3#8, d]
  | .nopZpxF4 d => [0xF4#8, d]
  | .sbcZpx d => [0xF5#8, d]
  | .incZpx d => [0xF6#8, d]
  | .iscZpx d => [0xF7#8, d]
  | .sed => [0xF8#8]
  | .sbcAby a => [0xF9#8, loByte a, hiByte a]
  | .nopImpFA => [0xFA#8]
  | .iscAby a => [0xFB#8, loByte a, hiByte a]
  | .nopAbxFC a => [0xFC#8, loByte a, hiByte a]
  | .sbcAbx a => [0xFD#8, loByte a, hiByte a]
  | .incAbx a => [0xFE#8, loByte a, hiByte a]
  | .iscAbx a => [0xFF#8, loByte a, hiByte a]

/-- An instruction is well formed when its encoding is one whole instruction. -/
def Instr.wf (i : Instr) : Bool := bytesWellFormed (encode i)

end Sys2Proof
end

