-- ==== Sys2Proof/Config.lean ====
section
/-! DEFINITION. What an implementation of the block fixes and the spec leaves open (R12), and the free values:
constants with no body, so that nothing can be proved about what they are. -/

namespace Sys2Proof

/-- `UNDOC_POLICY` (R12, R270): what fetching one of the 105 undocumented opcode bytes does. -/
inductive UndocPolicy where
  /-- None of the 105 has a meaning. -/
  | refuse
  /-- The stable ones have the meaning of 45_undocumented.md. -/
  | annex
  deriving DecidableEq, Repr, Inhabited

/-- The bank state of the multi-load scheme: "`bank` holds at least the control word in force and the multiload
id last requested" (R327). `hidden` stands for whatever else the device keeps, which the spec does not give (R329). -/
structure MultiBank where
  control : Byte
  loadId  : Byte
  hidden  : Nat
  deriving DecidableEq, Repr, Inhabited

/-- The closed set of trap reasons (R361, C4); nothing depends on their numbers. No trap has the reason `decodeFailure`:
"raised by nothing after load" (R361, C5), and `load` answers its failure without a trap (R365). -/
inductive TrapReason where
  | invalidWrite
  | invalidRead
  | decodeFailure
  deriving DecidableEq, Repr, Inhabited

/-- What an addition or a subtraction gives: the result byte and the four flags it writes (R181). -/
structure AddResult where
  r : Byte
  C : Bool
  V : Bool
  N : Bool
  Z : Bool
  deriving DecidableEq, Repr, Inhabited

/-- `DECIMAL` (R12, R182, R184, D8): the decimal add and subtract functions. -/
inductive DecimalChoice where
  /-- The default: the NMOS algorithm. -/
  | nmos
  /-- Any other pair of functions; the number tells one from another. -/
  | other (id : Nat)
  deriving DecidableEq, Repr, Inhabited

/-- What a device outside the block answers to a read: the byte, and its state afterwards, `none` where it traps the read,
which leaves its state (R362). The reason of that trap is `invalidRead` (R361, R334; log entry 30). -/
structure DeviceAnswer where
  value : Byte
  after : Option Nat
  deriving Inhabited

/-- Free value: the `n`-th byte drawn where the spec gives no value, "`any value`, drawn per read" (U3, D28, R64).
DEDUCED, safe: log entry 4. -/
opaque Config.freeByte : Nat → Byte

/-- Free value: the `n`-th number drawn for a power-up bank that the scheme leaves indeterminate (U20). -/
opaque Config.freeNat : Nat → Nat

/-- Free value: the text of a trap, "which a model carries as an uninterpreted value" (R360, U23). -/
opaque Config.trapMessage : TrapReason → String

/-- Uninterpreted (R329, U18): the bank state a multi-load cartridge starts in, from its image.
DEDUCED, safe: log entry 17. -/
opaque Config.multiInit : List Byte → MultiBank

/-- Uninterpreted (R329, U18): what a read of a multi-load cartridge returns and the bank state it leaves,
from the image, the bank state and the address. -/
opaque Config.multiRead : List Byte → MultiBank → Addr → Byte × MultiBank

/-- Uninterpreted (R329, U18): what a write to a multi-load cartridge does; `none` where the variant declares the
address ROM, to which R325 applies. -/
opaque Config.multiWrite : List Byte → MultiBank → Addr → Byte → Option MultiBank

/-- Uninterpreted (R12, U8): `DECIMAL.adc` of a choice that is not the default. -/
opaque Config.decimalAdc : Nat → Byte → Byte → Bool → AddResult

/-- Uninterpreted (R12, U8): `DECIMAL.sbc` of a choice that is not the default. -/
opaque Config.decimalSbc : Nat → Byte → Byte → Bool → AddResult

/-- Uninterpreted (R63): the state in which a device outside the block starts. -/
opaque Config.deviceInit : Nat → Nat

/-- Uninterpreted (R63, R71): what a device outside the block answers to a read, from its state and the address. -/
opaque Config.deviceRead : Nat → Nat → Addr → DeviceAnswer

/-- Uninterpreted (R63, R360): the state of a device outside the block after a write; `none` where it traps the write, with
the reason `invalidWrite` (R361; log entry 30). -/
opaque Config.deviceWrite : Nat → Nat → Addr → Byte → Option Nat

end Sys2Proof
end

