-- ==== Sys2Proof/Machine/State.lean ====
section
/-! DEFINITION. The state of the block (10_state.md), as plain data: registers, flags, the sequencer between two
cycles, the interrupt latches, the delay queue, the cartridge, the observer, memory, and the platform's parameters
that R8 and R12 make arguments of the step. Below it, why a step may stop, and the states at power-on and after reset. -/

namespace Sys2Proof.Machine

/-- The six flags (R25, R26), each one stored bit. Bits 5 and 4 of the status byte are not stored. -/
structure Flags where
  N : Bool
  V : Bool
  D : Bool
  I : Bool
  Z : Bool
  C : Bool
  deriving DecidableEq, Repr

/-- The latches of the sequencer (R33). -/
structure Latches where
  lo    : Byte
  hi    : Byte
  ptr   : Byte
  ea    : Addr
  m     : Byte
  cross : Bool
  deriving DecidableEq, Repr

/-- `IR` (R31): an opcode byte or one of the three pseudo-instructions. -/
inductive SeqKind where
  | op (b : Byte)
  | irq
  | nmi
  | reset
  deriving DecidableEq, Repr

/-- A sequence in progress: `IR` (R31), `T`, the cycle to run next (R32), and the latches (R33). -/
structure Seq where
  ir : SeqKind
  t  : Nat
  q  : Latches
  deriving DecidableEq, Repr

/-- `phase` (R30). At `idle` the sequencer holds nothing (R34), so nothing is stored there. -/
inductive Phase where
  | idle
  | run (sq : Seq)
  | fatal
  deriving DecidableEq, Repr

/-- One bus access of the CPU, as the bus sees it (R61, R66): the address is the 16 bits the CPU emits. -/
inductive Access where
  | rd (a : Addr) (v : Byte)
  | wr (a : Addr) (v : Byte)
  deriving DecidableEq, Repr

/-- The device that raised a trap (R360). -/
inductive TrapSource where
  | cartridge
  | bus
  deriving DecidableEq, Repr

/-- The triple the observer receives (R47, R360). -/
structure TrapEvent where
  reason  : TrapReason
  source  : TrapSource
  message : String
  deriving DecidableEq, Repr

/-- The delay queue (R40, R41, R42) with the parameters fixed at its construction (R300): `depth` is `N`,
`capacity` is `K`, `dests` is `DQ_DEST`; a destination is an opaque identifier. `whereIs` is the map `where`, kept
sorted by destination, a destination with no entry being `none`. -/
structure DelayQueue where
  depth    : Nat
  capacity : Nat
  dests    : List Nat
  slots    : List (List (Nat × Byte))
  whereIs  : List (Nat × Nat)
  next     : Nat
  deriving DecidableEq, Repr

/-- `ML_HEADER` (R12, R327): the size of a load, the place of the header in it, and the offsets in the header of its
fields; the two lists of the header are given by their first offset and their length, and `checked` are the "eight
designated header bytes" (R328). -/
structure HeaderLayout where
  loadSize       : Nat
  header         : Nat
  startLow       : Nat
  startHigh      : Nat
  control        : Nat
  blockCount     : Nat
  checksum       : Nat
  loadId         : Nat
  speedLow       : Nat
  speedHigh      : Nat
  locations      : Nat × Nat
  blockChecksums : Nat × Nat
  checked        : List Nat
  deriving DecidableEq, Repr

/-- The bank-switching scheme (R46), with the parameters of its variant: `CART_WINDOW` and `CART_PAD` of the fixed
small ROM (R323), the tuple `(W, B, hot, on_read, init_bank, oob)` of the hotspot template (R330), where no
`initBank` says that the power-up bank is indeterminate (U20), and the header's layout of the multi-load scheme
(R327). -/
inductive Scheme where
  | fixedRom (window : Nat) (pad : Byte)
  | hotspot (window banks : Nat) (hot : List (Nat × Nat)) (onRead : Bool) (initBank : Option Nat) (oob : Byte)
  | multiLoad (layout : HeaderLayout)
  deriving DecidableEq, Repr

/-- `bank` (R45), by scheme: none for the fixed small ROM (R323), a bank index (R330), or what R327 lists. -/
inductive Bank where
  | none
  | index (b : Nat)
  | multi (b : MultiBank)
  deriving DecidableEq, Repr

/-- The cartridge: `scheme` (R46), `rom` (R44) and `bank` (R45). -/
structure Cartridge where
  scheme : Scheme
  rom    : List Byte
  bank   : Bank
  deriving DecidableEq, Repr

/-- The devices a composite bus routes to (R63). An address `a` of a RAM range is the cell `base + (a & mirror)`, so a
RAM may be mirrored and may share its cells with another range (R393). `chip` is the companion chip's registers; `absent`
is an address that no device answers; `other` is a device outside the block, such as the peripheral adapter of R5, with
a state, effects and traps of its own. -/
inductive Device where
  | ram (base mirror : Addr)
  | cart
  | chip
  | absent
  | other (id : Nat)
  deriving DecidableEq, Repr

/-- A range of a composite bus: the addresses `a` with `a & mask = value` go to `dev` (R63). -/
structure Region where
  mask  : Addr
  value : Addr
  dev   : Device
  deriving DecidableEq, Repr

/-- A companion-chip register whose writes the chip routes through the queue (R76, R312, U17): a write at `addr`
becomes `push(dest, value, delay)`. -/
structure DelayedReg where
  addr  : Addr
  dest  : Nat
  delay : Nat
  deriving DecidableEq, Repr

/-- What takes a step inside one tick (R7): the CPU, the delay queue, the companion chip. -/
inductive Agent where
  | cpu
  | queue
  | chip
  deriving DecidableEq, Repr

/-- `DRIVER_ORDER` (R12, R369, D24): what one tick does, in order: `before` once, `each` in each of the `CHIP_RATIO`
chip cycles, `after` once. -/
structure DriverOrder where
  before : List Agent
  each   : List Agent
  after  : List Agent
  deriving DecidableEq, Repr

/-- The platform's parameters (R12), fixed for the life of an instance: `ADDR_MASK` (R65), which device answers
which address (R63; an address of no region is RAM: PRESUMED, log entry 16), the delayed registers of the chip,
`CHIP_RATIO`, `DRIVER_ORDER`, `DECIMAL`, and what the loader's `detect` uses (R322): `CART_WINDOW`, `CART_PAD`,
`ML_HEADER` and the configured hotspot schemes. -/
structure Platform where
  addrMask    : Addr
  regions     : List Region
  delayed     : List DelayedReg
  chipRatio   : Nat
  driverOrder : DriverOrder
  decimal     : DecimalChoice
  cartWindow  : Nat
  cartPad     : Byte
  mlHeader    : HeaderLayout
  hotspots    : List Scheme
  deriving DecidableEq, Repr

/-- Memory: (address, byte) pairs, addresses strictly rising. An address with no entry is a byte that nothing has
loaded or written (R64, R400). -/
abbrev Memory := List Host.Cell

/-- The state of the block. `draws`, `trace`, `traps` and `halt` are the model's own: how many free values have been
drawn, the bus accesses since the last instruction boundary, the events the observer has received since then, and the
trap that a read of the step in progress has raised with no observer. -/
structure State where
  /-- accumulator (R20) -/
  A : Byte
  /-- index register (R21) -/
  X : Byte
  /-- index register (R22) -/
  Y : Byte
  /-- stack pointer (R23) -/
  S : Byte
  /-- program counter (R24) -/
  PC : Addr
  /-- the flags (R25) -/
  P : Flags
  /-- `phase`, with `IR`, `T` and the latches inside `run` (R30 to R34) -/
  phase : Phase
  /-- the result of the last clock step (R36) -/
  boundary : Bool
  /-- the level of the IRQ input (R37) -/
  irqLine : Bool
  /-- the NMI latch (R38) -/
  nmiPending : Bool
  /-- the reset latch (R39) -/
  resetPending : Bool
  /-- the delay queue (R40 to R42) -/
  dq : DelayQueue
  /-- the cartridge (R44 to R46), where one is plugged in -/
  cart : Option Cartridge
  /-- whether a trap observer is registered (R47) -/
  observer : Bool
  /-- RAM (R64) -/
  mem : Memory
  /-- the states of the devices outside the block, by identifier; one with no entry is as it started (R63) -/
  devices : List (Nat × Nat)
  /-- the platform's parameters (R12) -/
  platform : Platform
  /-- `UNDOC_POLICY` (R12, R270) -/
  undoc : UndocPolicy
  /-- the model's own: how many free values have been drawn (U3) -/
  draws : Nat
  /-- the model's own: the bus accesses since the last boundary, oldest first (R67) -/
  trace : List Access
  /-- the model's own: the events the observer has received since the last boundary (R362) -/
  traps : List TrapEvent
  /-- the model's own: whether a bus read has been trapped with no observer; the step that made the read ends in the fatal
  halt (R362, R363), so between two steps it is false -/
  halt : Bool
  deriving DecidableEq, Repr

/-- Why the block halts for good (R363): a fatal halt is a terminal outcome. Each is safe: nothing can be proved
about the state afterwards, which the spec leaves unspecified (U12). -/
inductive Fault where
  /-- Raised by a bus write to ROM, or by an access that a device outside the block traps, when no observer is
  registered (R325, R360, R362). Safe. -/
  | trapWithoutObserver (r : TrapReason)
  /-- Raised by `push` with `delay >= N` (R303), or with a destination outside `DQ_DEST`. Safe. -/
  | configError
  /-- Raised by `push` into a full slot (R305). Safe. -/
  | queueOverflow
  deriving DecidableEq, Repr

/-- Why the model gives no meaning (R9 (d)). Each is safe: nothing can be proved about a program that gets there. -/
inductive Refusal where
  /-- Raised by an arm of `exec` whose instruction has no meaning yet. Safe. -/
  | notModelled (mnemonic : String)
  /-- Raised by every undocumented opcode under `UNDOC_POLICY = refuse` (R270). Safe. -/
  | undocumentedOpcode (op : Byte)
  /-- Raised by the unstable opcodes under every policy (R286 to R292). Safe. -/
  | unstableOpcode (op : Byte)
  /-- Raised if the bytes fetched decode to nothing, which no opcode byte does (R95). Safe. -/
  | undecodable
  deriving DecidableEq, Repr

/-- The queue as constructed (R301) with the smallest legal parameters and no destination. -/
def DelayQueue.initial : DelayQueue :=
  { depth := 1, capacity := 1, dests := [], slots := [[]], whereIs := [], next := 0 }

/-- `ML_HEADER` at its default (R327): loads of 8448 bytes, the header at `0x2000`. -/
def HeaderLayout.standard : HeaderLayout :=
  { loadSize := 8448, header := 0x2000, startLow := 0x00, startHigh := 0x01, control := 0x02, blockCount := 0x03
    checksum := 0x04, loadId := 0x05, speedLow := 0x06, speedHigh := 0x07, locations := (0x10, 24)
    blockChecksums := (0x40, 24), checked := [0, 1, 2, 3, 4, 5, 6, 7] }

/-- `DRIVER_ORDER` at its default (R369): the clock step, then in each chip cycle an `execute` and the chip's step. -/
def DriverOrder.standard : DriverOrder := { before := [.cpu], each := [.queue, .chip], after := [] }

/-- The flat 64 KB bus (R64) with every parameter at the default of R12. -/
def Platform.flat : Platform :=
  { addrMask := 0xFFFF#16, regions := [], delayed := [], chipRatio := 3, driverOrder := DriverOrder.standard
    decimal := .nmos, cartWindow := 2048, cartPad := 0#8, mlHeader := HeaderLayout.standard, hotspots := [] }

/-- The latches as a sequence starts; no rule reads one that the sequence has not written (R33). -/
def Latches.empty : Latches := { lo := 0#8, hi := 0#8, ptr := 0#8, ea := 0#16, m := 0#8, cross := false }

/-- A newly constructed block (R50, R392): a reset is pending, and its next step is the reset sequence. `boundary` before
any clock step and `I` before cycle 6 of that sequence have no value in the spec: both 0, DESIGN CHOICE, unsafe (log
entry 26). The other values that the spec does not give are those of log entries 1 to 6. -/
def State.powerOn : State :=
  { A := 0#8, X := 0#8, Y := 0#8, S := 0#8, PC := 0#16
    P := { N := false, V := false, D := false, I := false, Z := false, C := false }
    phase := .idle, boundary := false, irqLine := false, nmiPending := false, resetPending := true
    dq := DelayQueue.initial, cart := none, observer := false, mem := [], devices := []
    platform := Platform.flat, undoc := .annex, draws := 0, trace := [], traps := [], halt := false }

/-- The machine right after the reset sequence (R49, R390): `I = 1`, `S` three lower, `phase` idle, the last cycle a
boundary, no reset pending. The values that the spec does not give are the model's:
DESIGN CHOICE, unsafe (log entries 1 to 6); `annex` is log entry 7. -/
def State.reset : State :=
  { A := 0#8, X := 0#8, Y := 0#8, S := 0xFD#8, PC := 0#16
    P := { N := false, V := false, D := false, I := true, Z := false, C := false }
    phase := .idle, boundary := true, irqLine := false, nmiPending := false, resetPending := false
    dq := DelayQueue.initial, cart := none, observer := false, mem := [], devices := []
    platform := Platform.flat, undoc := .annex, draws := 0, trace := [], traps := [], halt := false }

end Sys2Proof.Machine
end

