-- ==== Sys2Proof/Machine/Assoc.lean ====
section
/-! DEFINITION. Tables kept as lists of (key, value) pairs with rising keys, so that equal tables are equal lists:
RAM (R64) and the queue's map `where` (R41). -/

namespace Sys2Proof.Machine

/-- The value stored under a key. -/
def tableGet {α : Type} : List (Nat × α) → Nat → Option α
  | [], _ => none
  | (k, v) :: t, a => if a = k then some v else tableGet t a

/-- Store a value under a key, keeping the keys rising. -/
def tableSet {α : Type} : List (Nat × α) → Nat → α → List (Nat × α)
  | [], a, v => [(a, v)]
  | (k, w) :: t, a, v =>
    if a < k then (a, v) :: (k, w) :: t
    else if a = k then (a, v) :: t
    else (k, w) :: tableSet t a v

/-- Remove a key. -/
def tableErase {α : Type} : List (Nat × α) → Nat → List (Nat × α)
  | [], _ => []
  | (k, w) :: t, a => if a = k then tableErase t a else (k, w) :: tableErase t a

/-- The keys rise strictly. -/
def tableRising {α : Type} : List (Nat × α) → Bool
  | [] => true
  | [_] => true
  | (k, _) :: (l, w) :: t => k < l && tableRising ((l, w) :: t)

/-- The canonical form of memory: addresses rise strictly and lie in the address space of R60. An address with no
entry reads as no value in particular, so no listed byte is redundant. -/
def Memory.wf (m : Memory) : Bool :=
  tableRising m && m.all (fun c => c.1 < 65536)

end Sys2Proof.Machine
end

