-- ==== Sys2Proof/Machine/Cartridge.lean ====
section
/-! DEFINITION. The cartridge (51_cartridge.md): `load` and `detect`, the fixed small ROM, the header check of the
multi-load scheme, the hotspot template, and the four bus operations on a cartridge. -/

namespace Sys2Proof.Machine

/-- A layout of the multi-load header names eight bytes to sum (R328) and no byte outside the load. One that does not is
a decode failure at load: DESIGN CHOICE, safe (log entry 18). -/
def HeaderLayout.wf (l : HeaderLayout) : Bool :=
  l.checked.length == 8 &&
    (([l.startLow, l.startHigh, l.control, l.blockCount, l.checksum, l.loadId, l.speedLow, l.speedHigh] ++ l.checked).all
      fun o => l.header + o < l.loadSize) &&
    l.header + l.locations.1 + l.locations.2 ≤ l.loadSize &&
    l.header + l.blockChecksums.1 + l.blockChecksums.2 ≤ l.loadSize

/-- Load number `k` of an image, and what follows it (R327). -/
def HeaderLayout.load (k : Nat) (image : List Byte) (l : HeaderLayout) : List Byte := image.drop (k * l.loadSize)

/-- The header byte at an offset, of the load at the front of an image. -/
def HeaderLayout.byte (o : Nat) (load : List Byte) (l : HeaderLayout) : Byte := load.getD (l.header + o) 0#8

/-- The "eight designated header bytes" of a load (R328). -/
def HeaderLayout.designated (load : List Byte) (l : HeaderLayout) : List Byte := l.checked.map fun o => l.byte o load

/-- The header of a load (R327). -/
structure Header where
  start          : Addr
  control        : Byte
  blockCount     : Byte
  checksum       : Byte
  loadId         : Byte
  speed          : Addr
  locations      : List Byte
  blockChecksums : List Byte
  deriving DecidableEq, Repr

/-- The fields of a load's header (R327). -/
def HeaderLayout.read (load : List Byte) (l : HeaderLayout) : Header :=
  { start := mkAddr (l.byte l.startHigh load) (l.byte l.startLow load)
    control := l.byte l.control load
    blockCount := l.byte l.blockCount load
    checksum := l.byte l.checksum load
    loadId := l.byte l.loadId load
    speed := mkAddr (l.byte l.speedHigh load) (l.byte l.speedLow load)
    locations := (load.drop (l.header + l.locations.1)).take l.locations.2
    blockChecksums := (load.drop (l.header + l.blockChecksums.1)).take l.blockChecksums.2 }

/-- `verify(header)` (R328): the sum of the eight bytes is `0x55` modulo 256. -/
def verifyHeader (header : List Byte) : Bool := (header.map BitVec.toNat).sum % 256 == 0x55

/-- The header of each of the first `n` loads of an image verifies (R328). -/
def verifyLoads (l : HeaderLayout) (n : Nat) (image : List Byte) : Bool :=
  (List.range n).all fun k => verifyHeader (l.designated (l.load k image))

/-- A window is a power of two (R323, R330). -/
def isWindow (w : Nat) : Bool := w != 0 && w &&& (w - 1) == 0

/-- `rom` of the fixed small ROM (R323): the image right-aligned in the window, padded or cut at its low end. -/
def fixedRomBytes (window : Nat) (pad : Byte) (image : List Byte) : List Byte :=
  List.replicate (window - image.length) pad ++ image.drop (image.length - window)

/-- The hotspot at a window offset, if there is one (R330). -/
def hotspotAt (hot : List (Nat × Nat)) (o : Nat) : Option Nat := tableGet hot o

/-- A hotspot tuple has the ranges R330 gives it; one that has not is a decode failure: DESIGN CHOICE, safe (log
entry 18). -/
def hotspotTuple (window banks : Nat) (hot : List (Nat × Nat)) (initBank : Option Nat) : Bool :=
  isWindow window && banks != 0 && hot.all (fun h => h.1 < window && h.2 < banks) &&
    (match initBank with
     | none => true
     | some b => b < banks)

/-- The variant's own constructor (R321 step 2); `none` is `DecodeFailure`. That a fixed small ROM whose window is not a
power of two is one as well is DESIGN CHOICE, safe (log entry 18): the spec does not say what becomes of it. `draw` is
the free number from which a power-up bank that the scheme leaves indeterminate is drawn (U20). -/
def Scheme.build (scheme : Scheme) (image : List Byte) (draw : Nat) : Option Cartridge :=
  match scheme with
  | .fixedRom w pad =>
    if image = [] ∨ isWindow w = false then none
    else some { scheme, rom := fixedRomBytes w pad image, bank := .none }
  | .hotspot w banks hot _ initBank _ =>
    if hotspotTuple w banks hot initBank = true ∧ image.length = banks * w then
      some { scheme, rom := image, bank := .index (initBank.getD (Config.freeNat draw % banks)) }
    else none
  | .multiLoad l =>
    let n := image.length / l.loadSize
    if l.wf = true ∧ n ≠ 0 ∧ image.length = n * l.loadSize ∧ verifyLoads l n image = true then
      some { scheme, rom := image, bank := .multi (Config.multiInit image) }
    else none

/-- The image length a configured hotspot scheme takes (R322). -/
def Scheme.imageLength : Scheme → Option Nat
  | .fixedRom _ _ => none
  | .hotspot w banks _ _ _ _ => some (banks * w)
  | .multiLoad _ => none

/-- `detect(image)` (R322, D37), by the image's length. Two points are DESIGN CHOICE, unsafe (log entry 28): a length that
is both 1 to CART_WINDOW and a positive multiple of a load's size (a CART_WINDOW of that size or more) is the fixed small
ROM; and where several configured hotspot schemes take the length, the first in the platform's list is taken. -/
def detect (p : Platform) (image : List Byte) : Option Scheme :=
  let n := image.length
  if 1 ≤ n ∧ n ≤ p.cartWindow then some (.fixedRom p.cartWindow p.cartPad)
  else if 1 ≤ n ∧ n % p.mlHeader.loadSize = 0 then some (.multiLoad p.mlHeader)
  else p.hotspots.find? (fun h => h.imageLength == some n)

/-- `load(image, scheme?)` (R321); `none` is `DecodeFailure`, after which emulation never starts (R365). -/
def Cartridge.load (p : Platform) (image : List Byte) (scheme : Option Scheme) (draw : Nat) : Option Cartridge :=
  match scheme with
  | some sc => sc.build image draw
  | none => (detect p image).bind (fun sc => sc.build image draw)

/-- The bank index in force; 0 for a scheme that has none. -/
def Cartridge.bankIndex (c : Cartridge) : Nat :=
  match c.bank with
  | .none => 0
  | .index b => b
  | .multi _ => 0

/-- The bank state of a multi-load cartridge. -/
def Cartridge.multiBank (c : Cartridge) : MultiBank :=
  match c.bank with
  | .none => Config.multiInit c.rom
  | .index _ => Config.multiInit c.rom
  | .multi b => b

/-- The headers of a multi-load cartridge, load by load (R327); none of another scheme. -/
def Cartridge.headers (c : Cartridge) : List Header :=
  match c.scheme with
  | .fixedRom _ _ => []
  | .hotspot _ _ _ _ _ _ => []
  | .multiLoad l => (List.range (c.rom.length / l.loadSize)).map fun k => l.read (l.load k c.rom)

/-- `read(addr)` (R324, R330, R329): the byte, and the cartridge afterwards. A hotspot read switches first. The tuple
gives no condition under which a scheme rules an address out, so `oob` is read only where `rom` holds no byte, which is
never in a well-formed cartridge: DESIGN CHOICE, unsafe (log entry 29). -/
def Cartridge.read (a : Addr) (c : Cartridge) : Byte × Cartridge :=
  match c.scheme with
  | .fixedRom w pad => (c.rom.getD (a.toNat % w) pad, c)
  | .hotspot w _ hot onRead _ oob =>
    let o := a.toNat % w
    let b := if onRead then (hotspotAt hot o).getD c.bankIndex else c.bankIndex
    (c.rom.getD (b * w + o) oob, { c with bank := .index b })
  | .multiLoad _ =>
    let r := Config.multiRead c.rom c.multiBank a
    (r.1, { c with bank := .multi r.2 })

/-- `write(addr, v)` (R325, R331, R329): the cartridge afterwards, or `none` where the write is a trap. Nothing is
ever stored in `rom`, and no bus conflict is resolved (R332). -/
def Cartridge.write (a : Addr) (v : Byte) (c : Cartridge) : Option Cartridge :=
  match c.scheme with
  | .fixedRom _ _ => none
  | .hotspot w _ hot _ _ _ => (hotspotAt hot (a.toNat % w)).map (fun b => { c with bank := .index b })
  | .multiLoad _ => (Config.multiWrite c.rom c.multiBank a v).map (fun b => { c with bank := .multi b })

/-- `peek(addr)` (R62, R326, D34): what `read` would return at that moment, changing nothing. DEDUCED, unsafe at a
hotspot (log entry 15). -/
def Cartridge.peek (a : Addr) (c : Cartridge) : Byte := (c.read a).1

/-- What holds of every cartridge that `load` makes and no bus access undoes: the sizes of R323 and R330, a legal
hotspot tuple, a bank in range (R330), and the bank state of its scheme (R45). -/
def Cartridge.wf (c : Cartridge) : Bool :=
  match c.scheme with
  | .fixedRom w _ => isWindow w && c.rom.length == w && c.bank == .none
  | .hotspot w banks hot _ initBank _ =>
    hotspotTuple w banks hot initBank && c.rom.length == banks * w && c.bank == .index c.bankIndex &&
      c.bankIndex < banks
  | .multiLoad _ => c.bank == .multi c.multiBank

end Sys2Proof.Machine
end

