-- ==== Sys2Proof/Machine/DelayQueue.lean ====
section
/-! DEFINITION. The delayed-write scheduler (50_delay_queue.md): construction, `push`, `execute`, and the invariants of
R43. It has no bus address (section 0 of that file): the chip pushes (Ops.lean) and the driving loop executes
(Clock.lean). -/

namespace Sys2Proof.Machine

/-- `new(N, K)` (R301); `none` is the configuration error of a depth or a capacity below 1. -/
def DelayQueue.new (depth capacity : Nat) (dests : List Nat) : Option DelayQueue :=
  if depth = 0 ∨ capacity = 0 then none
  else some { depth, capacity, dests, slots := List.replicate depth [], whereIs := [], next := 0 }

/-- Slot `i` of the ring. -/
def DelayQueue.slot (i : Nat) (q : DelayQueue) : List (Nat × Byte) := q.slots.getD i []

/-- Drop the pending pair of a destination, if it has one (R304); the other pairs keep their order. -/
def DelayQueue.cancel (dest : Nat) (q : DelayQueue) : DelayQueue :=
  match tableGet q.whereIs dest with
  | none => q
  | some i =>
    { q with slots := q.slots.set i ((q.slot i).filter (fun p => p.1 != dest)), whereIs := tableErase q.whereIs dest }

/-- Put a pair at the end of a slot. -/
def DelayQueue.append (dest : Nat) (v : Byte) (j : Nat) (q : DelayQueue) : DelayQueue :=
  { q with slots := q.slots.set j (q.slot j ++ [(dest, v)]), whereIs := tableSet q.whereIs dest j }

/-- `push(dest, value, delay)` (R302): the delay bound is checked first (R303), the capacity after the removal of the
stale pair (R305). A destination outside `DQ_DEST` is a configuration error:
DESIGN CHOICE, safe (log entry 12). -/
def DelayQueue.push (dest : Nat) (v : Byte) (delay : Nat) (q : DelayQueue) : Except Fault DelayQueue :=
  if q.depth ≤ delay ∨ dest ∉ q.dests then .error .configError
  else
    let q := q.cancel dest
    let j := (q.next + delay) % q.depth
    if q.capacity ≤ (q.slot j).length then .error .queueOverflow else .ok (q.append dest v j)

/-- `execute` (R306): the handler's calls in insertion order (R310), and the queue afterwards. What the handler does
is outside the block, and it makes no call back into it (R307). -/
def DelayQueue.execute (q : DelayQueue) : List (Nat × Byte) × DelayQueue :=
  (q.slot q.next,
    { q with
      slots := q.slots.set q.next []
      whereIs := (q.slot q.next).foldl (fun w p => tableErase w p.1) q.whereIs
      next := (q.next + 1) % q.depth })

/-- The invariants of R43: the ring has `N` slots and `next` is one of them, no slot holds more than `K` pairs nor a
destination twice, and `where[d] = i` exactly when slot `i` holds a pair for `d`. -/
abbrev DelayQueue.Inv (q : DelayQueue) : Prop :=
  q.slots.length = q.depth ∧ q.next < q.depth ∧ 0 < q.capacity ∧ tableRising q.whereIs = true ∧
  (∀ i ∈ List.range q.depth,
    (q.slot i).length ≤ q.capacity ∧ ((q.slot i).map Prod.fst).Nodup ∧
    ∀ p ∈ q.slot i, p.1 ∈ q.dests ∧ tableGet q.whereIs p.1 = some i) ∧
  (∀ p ∈ q.whereIs, p.2 < q.depth ∧ p.1 ∈ (q.slot p.2).map Prod.fst)

end Sys2Proof.Machine
end

