-- ==== Sys2Proof/Machine/Flags.lean ====
section
/-! DEFINITION. Every flag computation of the spec: the status byte (R26 to R28), `setNZ` (R180), binary and decimal
addition and subtraction (R181 to R184), comparison (R185), and the shifts with the bit they move out (R201 to R204). -/

namespace Sys2Proof.Machine

/-- `setNZ(v)` (R180). -/
def setNZ (v : Byte) (p : Flags) : Flags := { p with N := v.getLsbD 7, Z := v == 0#8 }

/-- `pack(b)` (R27): the byte a push of the status writes, bits `N V 1 b D I Z C` from 7 down to 0. -/
def pack (b : Bool) (p : Flags) : Byte :=
  BitVec.ofBool p.N ++ BitVec.ofBool p.V ++ 1#1 ++ BitVec.ofBool b ++ BitVec.ofBool p.D ++ BitVec.ofBool p.I ++
    BitVec.ofBool p.Z ++ BitVec.ofBool p.C

/-- `unpack(v)` (R28): bits 5 and 4 are ignored. -/
def unpack (v : Byte) : Flags :=
  { N := v.getLsbD 7, V := v.getLsbD 6, D := v.getLsbD 3, I := v.getLsbD 2, Z := v.getLsbD 1, C := v.getLsbD 0 }

/-- `adc_bin(a, m, c)` (R181). -/
def adcBin (a m : Byte) (c : Bool) : AddResult :=
  let sum := a.toNat + m.toNat + c.toNat
  let r := BitVec.ofNat 8 sum
  { r := r, C := 0xFF < sum, V := (~~~(a ^^^ m) &&& (a ^^^ r) &&& 0x80#8) != 0#8, N := r.getLsbD 7, Z := r == 0#8 }

/-- `adc_dec(a, m, c)` (R182), `DECIMAL.adc` at its default. -/
def adcDec (a m : Byte) (c : Bool) : AddResult :=
  let al₀ := a.toNat % 16 + m.toNat % 16 + c.toNat
  let al := if 0x0A ≤ al₀ then (al₀ + 0x06) % 16 + 0x10 else al₀
  let s₀ := a.toNat / 16 * 16 + m.toNat / 16 * 16 + al
  let n := BitVec.ofNat 8 s₀
  let s := if 0xA0 ≤ s₀ then s₀ + 0x60 else s₀
  { r := BitVec.ofNat 8 s
    C := 0x100 ≤ s
    V := (~~~(a ^^^ m) &&& (a ^^^ n) &&& 0x80#8) != 0#8
    N := n.getLsbD 7
    Z := BitVec.ofNat 8 (a.toNat + m.toNat + c.toNat) == 0#8 }

/-- `sbc_bin(a, m, c)` (R183). -/
def sbcBin (a m : Byte) (c : Bool) : AddResult := adcBin a (m ^^^ 0xFF#8) c

/-- `sbc_dec(a, m, c)` (R184), `DECIMAL.sbc` at its default: the flags are those of the binary subtraction.
`& 0x0F` of a negative number, on its two's-complement form, is the remainder modulo 16. -/
def sbcDec (a m : Byte) (c : Bool) : AddResult :=
  let al₀ : Int := (a.toNat % 16 : Nat) - (m.toNat % 16 : Nat) + (c.toNat : Nat) - 1
  let al : Int := if al₀ < 0 then (al₀ - 0x06) % 16 - 0x10 else al₀
  let s₀ : Int := (a.toNat / 16 * 16 : Nat) - (m.toNat / 16 * 16 : Nat) + al
  let s : Int := if s₀ < 0 then s₀ - 0x60 else s₀
  { sbcBin a m c with r := BitVec.ofInt 8 s }

/-- `DECIMAL.adc` (R182). -/
def decimalAdd (d : DecimalChoice) (a m : Byte) (c : Bool) : AddResult :=
  match d with
  | .nmos => adcDec a m c
  | .other id => Config.decimalAdc id a m c

/-- `DECIMAL.sbc` (R184). -/
def decimalSub (d : DecimalChoice) (a m : Byte) (c : Bool) : AddResult :=
  match d with
  | .nmos => sbcDec a m c
  | .other id => Config.decimalSbc id a m c

/-- The addition `ADC` makes, by the `D` flag (R190). -/
def adc (d : DecimalChoice) (a m : Byte) (p : Flags) : AddResult :=
  if p.D then decimalAdd d a m p.C else adcBin a m p.C

/-- The subtraction `SBC` makes, by the `D` flag (R191). -/
def sbc (d : DecimalChoice) (a m : Byte) (p : Flags) : AddResult :=
  if p.D then decimalSub d a m p.C else sbcBin a m p.C

/-- The flags after an addition or a subtraction: `N`, `V`, `Z`, `C` written, `D` and `I` kept. -/
def arithFlags (x : AddResult) (p : Flags) : Flags := { p with N := x.N, V := x.V, Z := x.Z, C := x.C }

/-- `compare(r, m)` (R185). -/
def compareFlags (r m : Byte) (p : Flags) : Flags :=
  { p with C := m.toNat ≤ r.toNat, Z := r == m, N := (r - m).getLsbD 7 }

/-- Shift left (R201): the result and the flags. -/
def shiftLeft (v : Byte) (p : Flags) : Byte × Flags :=
  let r := v <<< 1
  (r, setNZ r { p with C := v.getLsbD 7 })

/-- Shift right (R202). -/
def shiftRight (v : Byte) (p : Flags) : Byte × Flags :=
  let r := v >>> 1
  (r, setNZ r { p with C := v.getLsbD 0 })

/-- Rotate left through carry (R203). -/
def rotateLeft (v : Byte) (p : Flags) : Byte × Flags :=
  let r := (v <<< 1) ||| (BitVec.ofBool p.C).setWidth 8
  (r, setNZ r { p with C := v.getLsbD 7 })

/-- Rotate right through carry (R204). -/
def rotateRight (v : Byte) (p : Flags) : Byte × Flags :=
  let r := (v >>> 1) ||| ((BitVec.ofBool p.C).setWidth 8 <<< 7)
  (r, setNZ r { p with C := v.getLsbD 0 })

end Sys2Proof.Machine
end

