-- ==== Sys2Proof/Machine/Sequencer.lean ====
section
/-! DEFINITION. The step machine (40_sequencer_addressing.md section 1). A sequence is a list of clock cycles, the
rows of the spec's cycle tables after the opcode fetch (R114, R16); each makes one bus access and either goes on with
new latches, ends the sequence, or halts the block. -/

namespace Sys2Proof.Machine

/-- What one clock cycle comes to. -/
inductive Micro where
  | more (q : Latches) (s : State)
  | done (s : State)
  | halt (f : Fault)

/-- One row of a cycle table (R16). -/
abbrev Cycle := Latches → State → Micro

/-- What a step of the machine answers. -/
abbrev Out := Host.Outcome State Fault Refusal

/-- An opcode's entry: its byte, how many operand bytes are fetched in cycles 2 and 3, what the last of those cycles
does beside fetching, and the cycles after them. -/
structure Prog where
  ir    : Byte
  fetch : Nat
  fin   : Cycle
  tail  : List Cycle

/-- A cycle that only goes on. -/
def goOn : Cycle := fun q s => .more q s

/-- Go on with a cycle's result. -/
def Micro.andThen (x : Micro) (k : Cycle) : Micro :=
  match x with
  | .more q s => k q s
  | .done s => .done s
  | .halt f => .halt f

/-- Run cycles in order until one ends the sequence (R67). -/
def runCycles : List Cycle → Cycle
  | [], q, s => .more q s
  | c :: cs, q, s => (c q s).andThen (runCycles cs)

/-- Leave a sequence: at its end `phase` is idle and the boundary signal is 1 (R112, R113); otherwise the sequence
stays in progress, its next cycle being `t`. -/
def close (ir : SeqKind) (t : Nat) (x : Micro) : Out :=
  match x with
  | .more q s => .next { s with phase := .run { ir, t, q }, boundary := false }
  | .done s => .next { s with phase := .idle, boundary := true }
  | .halt f => .fault f

/-- The end of a step: a trap that one of its reads has raised with no observer is the fatal halt (R362, R363). -/
def settle (o : Out) : Out :=
  match o with
  | .next s =>
    if s.halt then .fault (.trapWithoutObserver .invalidRead) else .next s
  | .fault f => .fault f
  | .refused r => .refused r

/-- Run the rest of an instruction whose operand bytes have been fetched into the latches. A table that ends without
reaching a boundary leaves the sequencer in `run` (R272). -/
def Prog.run (p : Prog) (q : Latches) (s : State) : Out :=
  close (.op p.ir) (2 + p.fetch + p.tail.length) ((p.fin q s).andThen (runCycles p.tail))

end Sys2Proof.Machine
end

