-- ==== Sys2Proof/Machine/Ops.lean ====
section
/-! DEFINITION. The named operations over memory and registers: RAM and the bus with its devices (20_memory.md), the
bus accesses as cycles, the stack (R23), taking an interrupt and returning from one (R252 to R254, R354, R390). -/

namespace Sys2Proof.Machine

/-! ## RAM -/

/-- The byte at an address, if something has loaded or written it (R64). -/
def Memory.read (m : Memory) (a : Nat) : Option Byte := tableGet m a

/-- Store a byte. -/
def Memory.write (m : Memory) (a : Nat) (v : Byte) : Memory := tableSet m a v

/-! ## Free values -/

/-- Draw a free byte (U3, D28): "`any value`, drawn per read". -/
def State.draw (s : State) : Byte × State := (Config.freeByte s.draws, { s with draws := s.draws + 1 })

/-! ## The bus -/

/-- The address the devices see (R65). -/
def State.busAddr (s : State) (a : Addr) : Addr := a &&& s.platform.addrMask

/-- The device of the first region that a device-side address falls into; RAM where there is none (R63, R64). -/
def routeIn : List Region → Addr → Device
  | [], _ => .ram 0#16 0xFFFF#16
  | r :: rs, a => if a &&& r.mask = r.value then r.dev else routeIn rs a

/-- The device an address of the CPU reaches. -/
def State.route (s : State) (a : Addr) : Device := routeIn s.platform.regions (s.busAddr a)

/-- The delayed register of the chip at an address, if there is one (U17). -/
def State.delayedAt (s : State) (a : Addr) : Option DelayedReg :=
  s.platform.delayed.find? (fun r => r.addr == s.busAddr a)

/-- The cell of a RAM range that a device-side address names. -/
def ramIndex (base mirror a : Addr) : Nat := (base + (a &&& mirror)).toNat

/-- A RAM read: a byte that nothing has loaded or written is drawn (R64, R400). Only the count of draws depends on
which of the two it is. -/
def State.ramRead (s : State) (n : Nat) : Byte × State :=
  let v := Memory.read s.mem n
  (v.getD s.draw.1, { s with draws := if v.isSome then s.draws else s.draws + 1 })

/-- The event of a trap (R360). -/
def trapEvent (reason : TrapReason) (source : TrapSource) : TrapEvent :=
  { reason, source, message := Config.trapMessage reason }

/-- Raise a trap (R360, R362): one call of the observer if one is registered, else the fatal halt of R363. -/
def raiseTrap (reason : TrapReason) (source : TrapSource) (s : State) : Except Fault State :=
  if s.observer then .ok { s with traps := s.traps ++ [trapEvent reason source] }
  else .error (.trapWithoutObserver reason)

/-- The trap of a read, whose reason is `invalidRead` (R334, R360, R361, R362): the observer's event, or the mark that ends
the step in the fatal halt. -/
def readTrap (s : State) : State :=
  if s.observer then { s with traps := s.traps ++ [trapEvent .invalidRead .bus] }
  else { s with halt := true }

/-- The state of a device outside the block (R63). -/
def State.deviceState (s : State) (id : Nat) : Nat := (tableGet s.devices id).getD (Config.deviceInit id)

/-- A new state of a device outside the block. -/
def State.setDevice (id n : Nat) (s : State) : State := { s with devices := tableSet s.devices id n }

/-- The read of a device, without the record of the access. The chip and the addresses that no device answers give a
drawn value (R5, U3); a device outside the block gives what it gives, with its effect or its trap (R63, R71, R360). -/
def State.deviceRead (s : State) (a : Addr) : Byte × State :=
  match s.route a with
  | .ram base mirror => s.ramRead (ramIndex base mirror (s.busAddr a))
  | .cart =>
    match s.cart with
    | some c => ((c.read (s.busAddr a)).1, { s with cart := some (c.read (s.busAddr a)).2 })
    | none => s.draw
  | .chip => s.draw
  | .absent => s.draw
  | .other id =>
    let x := Config.deviceRead id (s.deviceState id) (s.busAddr a)
    match x.after with
    | some n => (x.value, s.setDevice id n)
    | none => (x.value, readTrap s)

/-- `bus.read(addr)` (R60, R61): it always gives a byte. No read of the block's own devices raises a trap (R9, R324,
R334); one of a device outside it may (U22), and then the mark that `readTrap` leaves ends the step. -/
def busRead (a : Addr) (s : State) : Byte × State :=
  let r := s.deviceRead a
  (r.1, { r.2 with trace := r.2.trace ++ [Access.rd a r.1] })

/-- The write of a device, without the record of the access. A write to ROM is a trap and stores nothing (R325); a
write to a delayed register of the chip is a `push` (R76); a write that no device of this block answers has no effect
here. -/
def State.deviceWrite (s : State) (a : Addr) (v : Byte) : Except Fault State :=
  match s.route a with
  | .ram base mirror => .ok { s with mem := Memory.write s.mem (ramIndex base mirror (s.busAddr a)) v }
  | .cart =>
    match s.cart with
    | some c =>
      match c.write (s.busAddr a) v with
      | some c' => .ok { s with cart := some c' }
      | none => raiseTrap .invalidWrite .cartridge s
    | none => .ok s
  | .chip =>
    match s.delayedAt a with
    | some r =>
      match s.dq.push r.dest v r.delay with
      | .ok q => .ok { s with dq := q }
      | .error f => .error f
    | none => .ok s
  | .absent => .ok s
  | .other id =>
    match Config.deviceWrite id (s.deviceState id) (s.busAddr a) v with
    | some n => .ok (s.setDevice id n)
    | none => raiseTrap .invalidWrite .bus s

/-- The first reason a step has to halt the block: a read's trap comes before what a later write of it meets (R366). -/
def State.firstFault (s : State) (f : Fault) : Fault :=
  if s.halt then .trapWithoutObserver .invalidRead else f

/-- `bus.write(addr, v)` (R60, R61). -/
def busWrite (a : Addr) (v : Byte) (s : State) : Except Fault State :=
  match State.deviceWrite { s with trace := s.trace ++ [Access.wr a v] } a v with
  | .ok t => .ok t
  | .error f => .error (s.firstFault f)

/-- The RAM cell that a write to an address stores to, if it reaches RAM. -/
def State.ramCell (s : State) (a : Addr) : Option Nat :=
  match s.route a with
  | .ram base mirror => some (ramIndex base mirror (s.busAddr a))
  | .cart => none
  | .chip => none
  | .absent => none
  | .other _ => none

/-! ## Bus accesses as cycles -/

/-- A cycle whose access is a read. -/
def rd (a : Addr) (s : State) (k : Byte → State → Micro) : Micro :=
  k (busRead a s).1 (busRead a s).2

/-- A cycle whose access is a write; a fatal halt ends it (R366). -/
def wr (a : Addr) (v : Byte) (s : State) (k : State → Micro) : Micro :=
  match busWrite a v s with
  | .ok s' => k s'
  | .error f => .halt f

/-- Fetch the byte at `PC` and step past it (R24, R115). -/
def fetchByte (s : State) : Byte × State :=
  let r := busRead s.PC s
  (r.1, { r.2 with PC := r.2.PC + 1 })

/-- A dummy read of `PC`, which stays (R150). -/
def dummyPC (k : Cycle) : Cycle := fun q s => rd s.PC s fun _ s => k q s

/-! ## The stack -/

/-- The stack slot that `S` names (R23). -/
def stackAddr (sp : Byte) : Addr := mkAddr 0x01#8 sp

/-- A push cycle (R23): write, then lower `S`. -/
def pushCycle (v : State → Byte) (k : Cycle) : Cycle := fun q s =>
  wr (stackAddr s.S) (v s) s fun s => k q { s with S := s.S - 1 }

/-- A read of the slot `S` names, after which `S` rises (the first half of a pull, R23). -/
def pullCycle (k : Byte → Cycle) : Cycle := fun q s =>
  rd (stackAddr s.S) s fun v s => k v q { s with S := s.S + 1 }

/-- A read of the slot `S` names, `S` staying: the last byte of a pull, or a dummy read (R150). -/
def stackCycle (k : Byte → Cycle) : Cycle := fun q s => rd (stackAddr s.S) s fun v s => k v q s

/-! ## Taking an interrupt and returning from one -/

/-- The NMI vector's address (R356). -/
def nmiVector : Addr := 0xFFFA#16

/-- The reset vector's address (R356). -/
def resetVector : Addr := 0xFFFC#16

/-- The vector that IRQ and `BRK` share (R356). -/
def irqVector : Addr := 0xFFFE#16

/-- The two cycles that load `PC` from a vector, `I` being set in the first (R252, R354, R390). -/
def vectorCycles (vec : Addr) : List Cycle :=
  [ fun q s => rd vec s fun v s => .more { q with lo := v } { s with P := { s.P with I := true } },
    fun q s => rd (vec + 1) s fun v s => .done { s with PC := mkAddr v q.lo } ]

/-- Taking an interrupt: cycles 3 to 7 of `BRK`, IRQ and NMI (R252, R354, R355). `PC` and the status are pushed, the
status with bit 4 as given, `I` is set after the push, `D` stays, and `PC` comes from the vector. -/
def entryCycles (b : Bool) (vec : Addr) : List Cycle :=
  [ pushCycle (fun s => hiByte s.PC) goOn,
    pushCycle (fun s => loByte s.PC) goOn,
    pushCycle (fun s => pack b s.P) goOn ] ++ vectorCycles vec

/-- Returning from one: cycles 2 to 6 of `RTI` (R253). -/
def returnCycles : List Cycle :=
  [ dummyPC goOn,
    pullCycle (fun _ => goOn),
    pullCycle (fun v q s => .more q { s with P := unpack v }),
    pullCycle (fun v q s => .more { q with lo := v } s),
    stackCycle (fun v q s => .done { s with PC := mkAddr v q.lo }) ]

/-- The IRQ and NMI sequences (R354): two dummy reads of `PC`, NMI clearing its latch in the first. -/
def interruptCycles (vec : Addr) (first : State → State) : List Cycle :=
  [ dummyPC (fun q s => .more q (first s)), dummyPC goOn ] ++ entryCycles false vec

/-- A push turned into a read: cycles 3 to 5 of the reset sequence (R390). -/
def resetStackCycle : Cycle := fun q s =>
  rd (stackAddr s.S) s fun _ s => .more q { s with S := s.S - 1 }

/-- The reset sequence (R390). -/
def resetCycles : List Cycle :=
  [ dummyPC (fun q s => .more q { s with resetPending := false }), dummyPC goOn,
    resetStackCycle, resetStackCycle, resetStackCycle ] ++ vectorCycles resetVector

/-- The request a boundary recognises, if any, by priority (R112, R352, R353). -/
def State.request (s : State) : Option SeqKind :=
  if s.resetPending then some .reset
  else if s.nmiPending then some .nmi
  else if s.irqLine && !s.P.I then some .irq
  else none

/-! ## The host's side of the bus -/

/-- `bus.peek(addr)` (R62, D34): the value a read would return at that moment, and no effect. -/
def peek (a : Addr) (s : State) : Byte := (s.deviceRead a).1

/-- `bus.poke(addr, v)` (R62, D34): a store to RAM; nothing at a cartridge (R326). Nothing, too, at the chip, at a device
outside the block and where no device answers, of which the spec says nothing: DESIGN CHOICE, unsafe (log entry 27). -/
def poke (a : Addr) (v : Byte) (s : State) : State :=
  match s.ramCell a with
  | some n => { s with mem := Memory.write s.mem n v }
  | none => s

end Sys2Proof.Machine
end

