-- ==== Sys2Proof/Machine/Operands.lean ====
section
/-! DEFINITION. Every addressing mode (R117 to R130) and the ways the operand classes end (R131 to R133), as the
cycles after the opcode fetch. -/

namespace Sys2Proof.Machine

/-- The addressing modes that deliver a memory operand or an immediate (R92). -/
inductive Mode where
  | imm
  | zp
  | zpx
  | zpy
  | abs
  | abx
  | aby
  | izx
  | izy
  deriving DecidableEq, Repr

/-- An address in page 0 (R72). -/
def zeroPage (lo : Byte) : Addr := mkAddr 0#8 lo

/-- Adding an index to a base address: the unsigned index over 16 bits (R93, R121). -/
def indexed (base : Addr) (i : Byte) : Addr := base + i.setWidth 16

/-- The address with the high byte not yet corrected, `hi:u8(lo + i)` (R121). -/
def uncorrected (base : Addr) (i : Byte) : Addr := mkAddr (hiByte base) (loByte base + i)

/-- `cross` (R121): the low-byte add carried. -/
def crosses (base : Addr) (i : Byte) : Bool := 0xFF < (loByte base).toNat + i.toNat

/-- A branch's displacement as 16 bits, `sext8` (R14, R129). -/
def displacement (d : Byte) : Addr := d.signExtend 16

/-- How many operand bytes a mode has (R91, R92). -/
def Mode.operandBytes : Mode → Nat
  | .imm => 1
  | .zp => 1
  | .zpx => 1
  | .zpy => 1
  | .abs => 2
  | .abx => 2
  | .aby => 2
  | .izx => 1
  | .izy => 1

/-- Resolve `hi:lo + i` into `ea` and `cross` (R121, R125, R126, R128). -/
def resolveIndexed (i : Byte) (q : Latches) : Latches :=
  { q with ea := indexed (mkAddr q.hi q.lo) i, cross := crosses (mkAddr q.hi q.lo) i }

/-- What the cycle that fetches the last operand byte does with it, by mode. -/
def Mode.latch (md : Mode) : Cycle := fun q s =>
  match md with
  | .imm => .more { q with m := q.lo } s
  | .zp => .more { q with ea := zeroPage q.lo } s
  | .zpx => .more q s
  | .zpy => .more q s
  | .abs => .more { q with ea := mkAddr q.hi q.lo } s
  | .abx => .more (resolveIndexed s.X q) s
  | .aby => .more (resolveIndexed s.Y q) s
  | .izx => .more { q with ptr := q.lo } s
  | .izy => .more { q with ptr := q.lo } s

/-- Cycle 3 of the zero-page indexed modes (R122, R123): a dummy read of the unindexed address. -/
def zeroPageIndexCycle (i : State → Byte) : Cycle := fun q s =>
  rd (zeroPage q.lo) s fun _ s => .more { q with ea := zeroPage (q.lo + i s) } s

/-- The dummy read at the uncorrected address that write and rmw classes always make (R125, R126, R128). -/
def uncorrectedCycle (i : State → Byte) : Cycle := fun q s =>
  rd (uncorrected (mkAddr q.hi q.lo) (i s)) s fun _ s => .more q s

/-- Cycles 3 to 5 of `(zp,X)` (R127). -/
def pointerXCycles : List Cycle :=
  [ fun q s => rd (zeroPage q.ptr) s fun _ s => .more { q with ptr := q.ptr + s.X } s,
    fun q s => rd (zeroPage q.ptr) s fun v s => .more { q with lo := v } s,
    fun q s => rd (zeroPage (q.ptr + 1)) s fun v s => .more { q with hi := v, ea := mkAddr v q.lo } s ]

/-- Cycles 3 and 4 of `(zp),Y` (R128). -/
def pointerYCycles : List Cycle :=
  [ fun q s => rd (zeroPage q.ptr) s fun v s => .more { q with lo := v } s,
    fun q s => rd (zeroPage (q.ptr + 1)) s fun v s => .more (resolveIndexed s.Y { q with hi := v }) s ]

/-- The cycles that resolve `ea` when a correction cycle is always spent: the write and rmw classes (R120 to R128). -/
def Mode.addressCycles : Mode → List Cycle
  | .imm => []
  | .zp => []
  | .zpx => [zeroPageIndexCycle State.X]
  | .zpy => [zeroPageIndexCycle State.Y]
  | .abs => []
  | .abx => [uncorrectedCycle State.X]
  | .aby => [uncorrectedCycle State.Y]
  | .izx => pointerXCycles
  | .izy => pointerYCycles ++ [uncorrectedCycle State.Y]

/-! ## Read class -/

/-- What a read-class instruction does with its operand byte (R131). -/
abbrev ReadOp := Byte → State → State

/-- The last cycle of the read class: read `ea` and apply the operation (R131). -/
def readCycle (op : ReadOp) : Cycle := fun q s => rd q.ea s fun v s => .done (op v s)

/-- The read at the uncorrected address: the last cycle when no page is crossed, else a dummy (R125, R126, R128). -/
def correctableCycle (i : State → Byte) (op : ReadOp) : Cycle := fun q s =>
  rd (uncorrected (mkAddr q.hi q.lo) (i s)) s fun v s => if q.cross then .more q s else .done (op v s)

/-- The cycles of the read class after the operand bytes, by mode. -/
def Mode.readCycles (md : Mode) (op : ReadOp) : List Cycle :=
  match md with
  | .imm => []
  | .zp => [readCycle op]
  | .zpx => [zeroPageIndexCycle State.X, readCycle op]
  | .zpy => [zeroPageIndexCycle State.Y, readCycle op]
  | .abs => [readCycle op]
  | .abx => [correctableCycle State.X op, readCycle op]
  | .aby => [correctableCycle State.Y op, readCycle op]
  | .izx => pointerXCycles ++ [readCycle op]
  | .izy => pointerYCycles ++ [correctableCycle State.Y op, readCycle op]

/-- The immediate mode applies the operation in the cycle that fetches the operand (R119). -/
def Mode.readFin (md : Mode) (op : ReadOp) : Cycle := fun q s =>
  if md = .imm then .done (op q.lo s) else md.latch q s

/-- A read-class instruction (R116, R131). -/
def readProg (ir : Byte) (md : Mode) (op : ReadOp) : Prog :=
  { ir, fetch := md.operandBytes, fin := md.readFin op, tail := md.readCycles op }

/-! ## Write class -/

/-- The last cycle of the write class: store the register, no flag changing (R132). -/
def storeCycle (reg : State → Byte) : Cycle := fun q s => wr q.ea (reg s) s fun s => .done s

/-- A write-class instruction (R116, R132). -/
def writeProg (ir : Byte) (md : Mode) (reg : State → Byte) : Prog :=
  { ir, fetch := md.operandBytes, fin := md.latch, tail := md.addressCycles ++ [storeCycle reg] }

/-! ## Read-modify-write class -/

/-- The new memory value of an rmw instruction, and the state with its registers and flags written (R133). -/
abbrev RmwOp := Byte → State → Byte × State

/-- The last three cycles of the rmw class (R133): read, write back the old value, write the new one. -/
def rmwCycles (f : RmwOp) : List Cycle :=
  [ fun q s => rd q.ea s fun v s => .more { q with m := v } s,
    fun q s => wr q.ea q.m s fun s => .more q s,
    fun q s => wr q.ea (f q.m s).1 s fun s => .done (f q.m s).2 ]

/-- A read-modify-write instruction (R116, R133). -/
def rmwProg (ir : Byte) (md : Mode) (f : RmwOp) : Prog :=
  { ir, fetch := md.operandBytes, fin := md.latch, tail := md.addressCycles ++ rmwCycles f }

/-! ## Implied class, and instructions with tables of their own -/

/-- A one-byte instruction whose operation takes effect in cycle 2, with the dummy read of the next byte (R117, R118). -/
def impliedProg (ir : Byte) (op : State → State) : Prog :=
  { ir, fetch := 0, fin := goOn, tail := [dummyPC (fun _ s => .done (op s))] }

/-- A one-byte instruction with a cycle table of its own, from cycle 2 (R135). -/
def oneByteProg (ir : Byte) (cycles : List Cycle) : Prog := { ir, fetch := 0, fin := goOn, tail := cycles }

/-! ## Running an instruction from its operand -/

/-- Format `F1`: no operand byte (R91). -/
def Prog.exec1 (p : Prog) (s : State) : Out := p.run Latches.empty s

/-- Format `F2`: one operand byte, fetched in cycle 2 (R91). -/
def Prog.exec2 (p : Prog) (d : Byte) (s : State) : Out := p.run { Latches.empty with lo := d } s

/-- Format `F3`: two operand bytes, fetched in cycles 2 and 3, the low one first (R91). -/
def Prog.exec3 (p : Prog) (a : Addr) (s : State) : Out :=
  p.run { Latches.empty with lo := loByte a, hi := hiByte a } s

end Sys2Proof.Machine
end

