-- ==== Sys2Proof/Machine/Control.lean ====
section
/-! DEFINITION. Branches, jumps, subroutine call and return (43_control_transfer.md). No instruction of this file
writes a flag. -/

namespace Sys2Proof.Machine

/-! ## Cycle tables -/

/-- Cycle 3 of a taken branch (R220): a dummy read of the next instruction's address, and the low byte of the target
goes into `PC`. -/
def branchLowCycle : Cycle := fun q s => rd s.PC s fun _ s' =>
  let s'' := { s' with PC := mkAddr (hiByte s.PC) (loByte q.ea) }
  if hiByte q.ea = hiByte s.PC then .done s'' else .more { q with cross := true } s''

/-- Cycle 4 of a branch to another page (R220): a dummy read of the half-corrected target, then the whole target. -/
def branchHighCycle : Cycle := fun q s => rd s.PC s fun _ s => .done { s with PC := q.ea }

/-- A branch (R220): the condition is tested in the cycle that fetches the displacement. -/
def branchProg (ir : Byte) (cond : Flags → Bool) : Prog :=
  { ir, fetch := 1
    fin := fun q s => if cond s.P then .more { q with ea := s.PC + displacement q.lo } s else .done s
    tail := [branchLowCycle, branchHighCycle] }

/-- Cycles 4 and 5 of `JMP (ind)` (R230): the pointer's low byte wraps within its page. -/
def jumpIndirectCycles : List Cycle :=
  [ fun q s => rd (mkAddr q.hi q.lo) s fun v s => .more { q with m := v } s,
    fun q s => rd (mkAddr q.hi (q.lo + 1)) s fun v s => .done { s with PC := mkAddr v q.m } ]

/-- Cycles 3 to 6 of `JSR` (R231): the high byte of the target is fetched after the two pushes. -/
def callCycles : List Cycle :=
  [ stackCycle (fun _ => goOn),
    pushCycle (fun s => hiByte s.PC) goOn,
    pushCycle (fun s => loByte s.PC) goOn,
    fun q s => rd s.PC s fun v s => .done { s with PC := mkAddr v q.lo } ]

/-- Cycles 2 to 6 of `RTS` (R232). -/
def returnSubCycles : List Cycle :=
  [ dummyPC goOn,
    pullCycle (fun _ => goOn),
    pullCycle (fun v q s => .more { q with lo := v } s),
    stackCycle (fun v q s => .more q { s with PC := mkAddr v q.lo }),
    dummyPC (fun _ s => .done { s with PC := s.PC + 1 }) ]

/-! ## BPL -/

/-- The table of `BPL`, `0x10` (R221). -/
def progBpl : Prog := branchProg 0x10#8 (fun p => !p.N)

/-- `BPL`, `0x10` (R221). -/
def execBpl (d : Byte) (s : State) : Out := progBpl.exec2 d s

/-! ## BMI -/

/-- The table of `BMI`, `0x30` (R222). -/
def progBmi : Prog := branchProg 0x30#8 (fun p => p.N)

/-- `BMI`, `0x30` (R222). -/
def execBmi (d : Byte) (s : State) : Out := progBmi.exec2 d s

/-! ## BVC -/

/-- The table of `BVC`, `0x50` (R223). -/
def progBvc : Prog := branchProg 0x50#8 (fun p => !p.V)

/-- `BVC`, `0x50` (R223). -/
def execBvc (d : Byte) (s : State) : Out := progBvc.exec2 d s

/-! ## BVS -/

/-- The table of `BVS`, `0x70` (R224). -/
def progBvs : Prog := branchProg 0x70#8 (fun p => p.V)

/-- `BVS`, `0x70` (R224). -/
def execBvs (d : Byte) (s : State) : Out := progBvs.exec2 d s

/-! ## BCC -/

/-- The table of `BCC`, `0x90` (R225). -/
def progBcc : Prog := branchProg 0x90#8 (fun p => !p.C)

/-- `BCC`, `0x90` (R225). -/
def execBcc (d : Byte) (s : State) : Out := progBcc.exec2 d s

/-! ## BCS -/

/-- The table of `BCS`, `0xB0` (R226). -/
def progBcs : Prog := branchProg 0xB0#8 (fun p => p.C)

/-- `BCS`, `0xB0` (R226). -/
def execBcs (d : Byte) (s : State) : Out := progBcs.exec2 d s

/-! ## BNE -/

/-- The table of `BNE`, `0xD0` (R227). -/
def progBne : Prog := branchProg 0xD0#8 (fun p => !p.Z)

/-- `BNE`, `0xD0` (R227). -/
def execBne (d : Byte) (s : State) : Out := progBne.exec2 d s

/-! ## BEQ -/

/-- The table of `BEQ`, `0xF0` (R228). -/
def progBeq : Prog := branchProg 0xF0#8 (fun p => p.Z)

/-- `BEQ`, `0xF0` (R228). -/
def execBeq (d : Byte) (s : State) : Out := progBeq.exec2 d s

/-! ## JMP -/

/-- The table of `JMP` abs, `0x4C` (R229). -/
def progJmpAbs : Prog := { ir := 0x4C#8, fetch := 2, fin := fun q s => .done { s with PC := mkAddr q.hi q.lo }, tail := [] }

/-- `JMP` abs, `0x4C` (R229). -/
def execJmpAbs (a : Addr) (s : State) : Out := progJmpAbs.exec3 a s

/-- The table of `JMP` ind, `0x6C` (R230). -/
def progJmpInd : Prog := { ir := 0x6C#8, fetch := 2, fin := goOn, tail := jumpIndirectCycles }

/-- `JMP` ind, `0x6C` (R230). -/
def execJmpInd (a : Addr) (s : State) : Out := progJmpInd.exec3 a s

/-! ## JSR -/

/-- The table of `JSR` abs, `0x20` (R231). -/
def progJsr : Prog := { ir := 0x20#8, fetch := 1, fin := goOn, tail := callCycles }

/-- `JSR` abs, `0x20` (R231). Only the low operand byte is taken from the instruction: the high one is read from the bus in
cycle 6, after the pushes. -/
def execJsr (a : Addr) (s : State) : Out := progJsr.exec2 (loByte a) s

/-! ## RTS -/

/-- The table of `RTS`, `0x60` (R232). -/
def progRts : Prog := oneByteProg 0x60#8 returnSubCycles

/-- `RTS`, `0x60` (R232). -/
def execRts (s : State) : Out := progRts.exec1 s

end Sys2Proof.Machine
end

