-- ==== Sys2Proof/Machine/LoadStore.lean ====
section
/-! DEFINITION. Loads, stores and register transfers (41_load_store_transfer.md). -/

namespace Sys2Proof.Machine

/-! ## Operations -/

/-- `A <- m; setNZ(m)` (R160). -/
def opLda : ReadOp := fun m s => { s with A := m, P := setNZ m s.P }

/-- `X <- m; setNZ(m)` (R161). -/
def opLdx : ReadOp := fun m s => { s with X := m, P := setNZ m s.P }

/-- `Y <- m; setNZ(m)` (R162). -/
def opLdy : ReadOp := fun m s => { s with Y := m, P := setNZ m s.P }

/-- `X <- A; setNZ(A)` (R166). -/
def opTax (s : State) : State := { s with X := s.A, P := setNZ s.A s.P }

/-- `Y <- A; setNZ(A)` (R167). -/
def opTay (s : State) : State := { s with Y := s.A, P := setNZ s.A s.P }

/-- `A <- X; setNZ(X)` (R168). -/
def opTxa (s : State) : State := { s with A := s.X, P := setNZ s.X s.P }

/-- `A <- Y; setNZ(Y)` (R169). -/
def opTya (s : State) : State := { s with A := s.Y, P := setNZ s.Y s.P }

/-- `X <- S; setNZ(S)` (R170). -/
def opTsx (s : State) : State := { s with X := s.S, P := setNZ s.S s.P }

/-- `S <- X`, no flag (R171). -/
def opTxs (s : State) : State := { s with S := s.X }

/-! ## LDA -/

/-- The table of `LDA` izx, `0xA1` (R160). -/
def progLdaIzx : Prog := readProg 0xA1#8 .izx opLda

/-- `LDA` izx, `0xA1` (R160). -/
def execLdaIzx (d : Byte) (s : State) : Out := progLdaIzx.exec2 d s

/-- The table of `LDA` zp, `0xA5` (R160). -/
def progLdaZp : Prog := readProg 0xA5#8 .zp opLda

/-- `LDA` zp, `0xA5` (R160). -/
def execLdaZp (d : Byte) (s : State) : Out := progLdaZp.exec2 d s

/-- The table of `LDA` imm, `0xA9` (R160). -/
def progLdaImm : Prog := readProg 0xA9#8 .imm opLda

/-- `LDA` imm, `0xA9` (R160). -/
def execLdaImm (d : Byte) (s : State) : Out := progLdaImm.exec2 d s

/-- The table of `LDA` abs, `0xAD` (R160). -/
def progLdaAbs : Prog := readProg 0xAD#8 .abs opLda

/-- `LDA` abs, `0xAD` (R160). -/
def execLdaAbs (a : Addr) (s : State) : Out := progLdaAbs.exec3 a s

/-- The table of `LDA` izy, `0xB1` (R160). -/
def progLdaIzy : Prog := readProg 0xB1#8 .izy opLda

/-- `LDA` izy, `0xB1` (R160). -/
def execLdaIzy (d : Byte) (s : State) : Out := progLdaIzy.exec2 d s

/-- The table of `LDA` zpx, `0xB5` (R160). -/
def progLdaZpx : Prog := readProg 0xB5#8 .zpx opLda

/-- `LDA` zpx, `0xB5` (R160). -/
def execLdaZpx (d : Byte) (s : State) : Out := progLdaZpx.exec2 d s

/-- The table of `LDA` aby, `0xB9` (R160). -/
def progLdaAby : Prog := readProg 0xB9#8 .aby opLda

/-- `LDA` aby, `0xB9` (R160). -/
def execLdaAby (a : Addr) (s : State) : Out := progLdaAby.exec3 a s

/-- The table of `LDA` abx, `0xBD` (R160). -/
def progLdaAbx : Prog := readProg 0xBD#8 .abx opLda

/-- `LDA` abx, `0xBD` (R160). -/
def execLdaAbx (a : Addr) (s : State) : Out := progLdaAbx.exec3 a s

/-! ## LDX -/

/-- The table of `LDX` imm, `0xA2` (R161). -/
def progLdxImm : Prog := readProg 0xA2#8 .imm opLdx

/-- `LDX` imm, `0xA2` (R161). -/
def execLdxImm (d : Byte) (s : State) : Out := progLdxImm.exec2 d s

/-- The table of `LDX` zp, `0xA6` (R161). -/
def progLdxZp : Prog := readProg 0xA6#8 .zp opLdx

/-- `LDX` zp, `0xA6` (R161). -/
def execLdxZp (d : Byte) (s : State) : Out := progLdxZp.exec2 d s

/-- The table of `LDX` abs, `0xAE` (R161). -/
def progLdxAbs : Prog := readProg 0xAE#8 .abs opLdx

/-- `LDX` abs, `0xAE` (R161). -/
def execLdxAbs (a : Addr) (s : State) : Out := progLdxAbs.exec3 a s

/-- The table of `LDX` zpy, `0xB6` (R161). -/
def progLdxZpy : Prog := readProg 0xB6#8 .zpy opLdx

/-- `LDX` zpy, `0xB6` (R161). -/
def execLdxZpy (d : Byte) (s : State) : Out := progLdxZpy.exec2 d s

/-- The table of `LDX` aby, `0xBE` (R161). -/
def progLdxAby : Prog := readProg 0xBE#8 .aby opLdx

/-- `LDX` aby, `0xBE` (R161). -/
def execLdxAby (a : Addr) (s : State) : Out := progLdxAby.exec3 a s

/-! ## LDY -/

/-- The table of `LDY` imm, `0xA0` (R162). -/
def progLdyImm : Prog := readProg 0xA0#8 .imm opLdy

/-- `LDY` imm, `0xA0` (R162). -/
def execLdyImm (d : Byte) (s : State) : Out := progLdyImm.exec2 d s

/-- The table of `LDY` zp, `0xA4` (R162). -/
def progLdyZp : Prog := readProg 0xA4#8 .zp opLdy

/-- `LDY` zp, `0xA4` (R162). -/
def execLdyZp (d : Byte) (s : State) : Out := progLdyZp.exec2 d s

/-- The table of `LDY` abs, `0xAC` (R162). -/
def progLdyAbs : Prog := readProg 0xAC#8 .abs opLdy

/-- `LDY` abs, `0xAC` (R162). -/
def execLdyAbs (a : Addr) (s : State) : Out := progLdyAbs.exec3 a s

/-- The table of `LDY` zpx, `0xB4` (R162). -/
def progLdyZpx : Prog := readProg 0xB4#8 .zpx opLdy

/-- `LDY` zpx, `0xB4` (R162). -/
def execLdyZpx (d : Byte) (s : State) : Out := progLdyZpx.exec2 d s

/-- The table of `LDY` abx, `0xBC` (R162). -/
def progLdyAbx : Prog := readProg 0xBC#8 .abx opLdy

/-- `LDY` abx, `0xBC` (R162). -/
def execLdyAbx (a : Addr) (s : State) : Out := progLdyAbx.exec3 a s

/-! ## STA -/

/-- The table of `STA` izx, `0x81` (R163). -/
def progStaIzx : Prog := writeProg 0x81#8 .izx State.A

/-- `STA` izx, `0x81` (R163). -/
def execStaIzx (d : Byte) (s : State) : Out := progStaIzx.exec2 d s

/-- The table of `STA` zp, `0x85` (R163). -/
def progStaZp : Prog := writeProg 0x85#8 .zp State.A

/-- `STA` zp, `0x85` (R163). -/
def execStaZp (d : Byte) (s : State) : Out := progStaZp.exec2 d s

/-- The table of `STA` abs, `0x8D` (R163). -/
def progStaAbs : Prog := writeProg 0x8D#8 .abs State.A

/-- `STA` abs, `0x8D` (R163). -/
def execStaAbs (a : Addr) (s : State) : Out := progStaAbs.exec3 a s

/-- The table of `STA` izy, `0x91` (R163). -/
def progStaIzy : Prog := writeProg 0x91#8 .izy State.A

/-- `STA` izy, `0x91` (R163). -/
def execStaIzy (d : Byte) (s : State) : Out := progStaIzy.exec2 d s

/-- The table of `STA` zpx, `0x95` (R163). -/
def progStaZpx : Prog := writeProg 0x95#8 .zpx State.A

/-- `STA` zpx, `0x95` (R163). -/
def execStaZpx (d : Byte) (s : State) : Out := progStaZpx.exec2 d s

/-- The table of `STA` aby, `0x99` (R163). -/
def progStaAby : Prog := writeProg 0x99#8 .aby State.A

/-- `STA` aby, `0x99` (R163). -/
def execStaAby (a : Addr) (s : State) : Out := progStaAby.exec3 a s

/-- The table of `STA` abx, `0x9D` (R163). -/
def progStaAbx : Prog := writeProg 0x9D#8 .abx State.A

/-- `STA` abx, `0x9D` (R163). -/
def execStaAbx (a : Addr) (s : State) : Out := progStaAbx.exec3 a s

/-! ## STX -/

/-- The table of `STX` zp, `0x86` (R164). -/
def progStxZp : Prog := writeProg 0x86#8 .zp State.X

/-- `STX` zp, `0x86` (R164). -/
def execStxZp (d : Byte) (s : State) : Out := progStxZp.exec2 d s

/-- The table of `STX` abs, `0x8E` (R164). -/
def progStxAbs : Prog := writeProg 0x8E#8 .abs State.X

/-- `STX` abs, `0x8E` (R164). -/
def execStxAbs (a : Addr) (s : State) : Out := progStxAbs.exec3 a s

/-- The table of `STX` zpy, `0x96` (R164). -/
def progStxZpy : Prog := writeProg 0x96#8 .zpy State.X

/-- `STX` zpy, `0x96` (R164). -/
def execStxZpy (d : Byte) (s : State) : Out := progStxZpy.exec2 d s

/-! ## STY -/

/-- The table of `STY` zp, `0x84` (R165). -/
def progStyZp : Prog := writeProg 0x84#8 .zp State.Y

/-- `STY` zp, `0x84` (R165). -/
def execStyZp (d : Byte) (s : State) : Out := progStyZp.exec2 d s

/-- The table of `STY` abs, `0x8C` (R165). -/
def progStyAbs : Prog := writeProg 0x8C#8 .abs State.Y

/-- `STY` abs, `0x8C` (R165). -/
def execStyAbs (a : Addr) (s : State) : Out := progStyAbs.exec3 a s

/-- The table of `STY` zpx, `0x94` (R165). -/
def progStyZpx : Prog := writeProg 0x94#8 .zpx State.Y

/-- `STY` zpx, `0x94` (R165). -/
def execStyZpx (d : Byte) (s : State) : Out := progStyZpx.exec2 d s

/-! ## TAX -/

/-- The table of `TAX`, `0xAA` (R166). -/
def progTax : Prog := impliedProg 0xAA#8 opTax

/-- `TAX`, `0xAA` (R166). -/
def execTax (s : State) : Out := progTax.exec1 s

/-! ## TAY -/

/-- The table of `TAY`, `0xA8` (R167). -/
def progTay : Prog := impliedProg 0xA8#8 opTay

/-- `TAY`, `0xA8` (R167). -/
def execTay (s : State) : Out := progTay.exec1 s

/-! ## TXA -/

/-- The table of `TXA`, `0x8A` (R168). -/
def progTxa : Prog := impliedProg 0x8A#8 opTxa

/-- `TXA`, `0x8A` (R168). -/
def execTxa (s : State) : Out := progTxa.exec1 s

/-! ## TYA -/

/-- The table of `TYA`, `0x98` (R169). -/
def progTya : Prog := impliedProg 0x98#8 opTya

/-- `TYA`, `0x98` (R169). -/
def execTya (s : State) : Out := progTya.exec1 s

/-! ## TSX -/

/-- The table of `TSX`, `0xBA` (R170). -/
def progTsx : Prog := impliedProg 0xBA#8 opTsx

/-- `TSX`, `0xBA` (R170). -/
def execTsx (s : State) : Out := progTsx.exec1 s

/-! ## TXS -/

/-- The table of `TXS`, `0x9A` (R171). -/
def progTxs : Prog := impliedProg 0x9A#8 opTxs

/-- `TXS`, `0x9A` (R171). -/
def execTxs (s : State) : Out := progTxs.exec1 s

end Sys2Proof.Machine
end

