-- ==== Sys2Proof/Machine/System.lean ====
section
/-! DEFINITION. Stack, flag and system instructions (44_stack_flags_system.md). Taking the interrupt of `BRK` and
returning from one are the shared operations of Ops.lean. -/

namespace Sys2Proof.Machine

/-! ## Cycle tables and operations -/

/-- Cycles 2 and 3 of `PHA` and `PHP` (R240, R241). -/
def pushTable (v : State → Byte) : List Cycle := [dummyPC goOn, pushCycle v (fun _ s => .done s)]

/-- Cycles 2 to 4 of `PLA` and `PLP` (R242, R243). -/
def pullTable (op : ReadOp) : List Cycle :=
  [dummyPC goOn, pullCycle (fun _ => goOn), stackCycle (fun v _ s => .done (op v s))]

/-- `A <- m; setNZ(m)` (R242). -/
def opPla : ReadOp := fun m s => { s with A := m, P := setNZ m s.P }

/-- `unpack(m)` (R243). -/
def opPlp : ReadOp := fun m s => { s with P := unpack m }

/-- `C <- 0` (R244). -/
def opClc (s : State) : State := { s with P := { s.P with C := false } }

/-- `C <- 1` (R245). -/
def opSec (s : State) : State := { s with P := { s.P with C := true } }

/-- `I <- 0` (R246). -/
def opCli (s : State) : State := { s with P := { s.P with I := false } }

/-- `I <- 1` (R247). -/
def opSei (s : State) : State := { s with P := { s.P with I := true } }

/-- `V <- 0` (R248). -/
def opClv (s : State) : State := { s with P := { s.P with V := false } }

/-- `D <- 0` (R249). -/
def opCld (s : State) : State := { s with P := { s.P with D := false } }

/-- `D <- 1` (R250). -/
def opSed (s : State) : State := { s with P := { s.P with D := true } }

/-- Cycle 2 of `BRK` (R252): a dummy read of the padding byte, which is stepped past. -/
def paddingCycle : Cycle := dummyPC (fun q s => .more q { s with PC := s.PC + 1 })

/-! ## PHA -/

/-- The table of `PHA`, `0x48` (R240). -/
def progPha : Prog := oneByteProg 0x48#8 (pushTable State.A)

/-- `PHA`, `0x48` (R240). -/
def execPha (s : State) : Out := progPha.exec1 s

/-! ## PHP -/

/-- The table of `PHP`, `0x08` (R241). -/
def progPhp : Prog := oneByteProg 0x08#8 (pushTable (fun s => pack true s.P))

/-- `PHP`, `0x08` (R241). -/
def execPhp (s : State) : Out := progPhp.exec1 s

/-! ## PLA -/

/-- The table of `PLA`, `0x68` (R242). -/
def progPla : Prog := oneByteProg 0x68#8 (pullTable opPla)

/-- `PLA`, `0x68` (R242). -/
def execPla (s : State) : Out := progPla.exec1 s

/-! ## PLP -/

/-- The table of `PLP`, `0x28` (R243). -/
def progPlp : Prog := oneByteProg 0x28#8 (pullTable opPlp)

/-- `PLP`, `0x28` (R243). -/
def execPlp (s : State) : Out := progPlp.exec1 s

/-! ## CLC -/

/-- The table of `CLC`, `0x18` (R244). -/
def progClc : Prog := impliedProg 0x18#8 opClc

/-- `CLC`, `0x18` (R244). -/
def execClc (s : State) : Out := progClc.exec1 s

/-! ## SEC -/

/-- The table of `SEC`, `0x38` (R245). -/
def progSec : Prog := impliedProg 0x38#8 opSec

/-- `SEC`, `0x38` (R245). -/
def execSec (s : State) : Out := progSec.exec1 s

/-! ## CLI -/

/-- The table of `CLI`, `0x58` (R246). -/
def progCli : Prog := impliedProg 0x58#8 opCli

/-- `CLI`, `0x58` (R246). -/
def execCli (s : State) : Out := progCli.exec1 s

/-! ## SEI -/

/-- The table of `SEI`, `0x78` (R247). -/
def progSei : Prog := impliedProg 0x78#8 opSei

/-- `SEI`, `0x78` (R247). -/
def execSei (s : State) : Out := progSei.exec1 s

/-! ## CLV -/

/-- The table of `CLV`, `0xB8` (R248). -/
def progClv : Prog := impliedProg 0xB8#8 opClv

/-- `CLV`, `0xB8` (R248). -/
def execClv (s : State) : Out := progClv.exec1 s

/-! ## CLD -/

/-- The table of `CLD`, `0xD8` (R249). -/
def progCld : Prog := impliedProg 0xD8#8 opCld

/-- `CLD`, `0xD8` (R249). -/
def execCld (s : State) : Out := progCld.exec1 s

/-! ## SED -/

/-- The table of `SED`, `0xF8` (R250). -/
def progSed : Prog := impliedProg 0xF8#8 opSed

/-- `SED`, `0xF8` (R250). -/
def execSed (s : State) : Out := progSed.exec1 s

/-! ## NOP -/

/-- The table of `NOP`, `0xEA` (R251). -/
def progNop : Prog := impliedProg 0xEA#8 id

/-- `NOP`, `0xEA` (R251). -/
def execNop (s : State) : Out := progNop.exec1 s

/-! ## BRK -/

/-- The table of `BRK`, `0x00` (R252). -/
def progBrk : Prog := oneByteProg 0x00#8 (paddingCycle :: entryCycles true irqVector)

/-- `BRK`, `0x00` (R252). -/
def execBrk (s : State) : Out := progBrk.exec1 s

/-! ## RTI -/

/-- The table of `RTI`, `0x40` (R253). -/
def progRti : Prog := oneByteProg 0x40#8 returnCycles

/-- `RTI`, `0x40` (R253). -/
def execRti (s : State) : Out := progRti.exec1 s

end Sys2Proof.Machine
end

