-- ==== Sys2Proof/Machine/Alu.lean ====
section
/-! DEFINITION. Logic, arithmetic, compare, increment and decrement (42_alu.md sections 2 to 4). -/

namespace Sys2Proof.Machine

/-! ## Operations -/

/-- `A <- A | m; setNZ(A)` (R186). -/
def opOra : ReadOp := fun m s => { s with A := s.A ||| m, P := setNZ (s.A ||| m) s.P }

/-- `A <- A & m; setNZ(A)` (R187). -/
def opAnd : ReadOp := fun m s => { s with A := s.A &&& m, P := setNZ (s.A &&& m) s.P }

/-- `A <- A ^ m; setNZ(A)` (R188). -/
def opEor : ReadOp := fun m s => { s with A := s.A ^^^ m, P := setNZ (s.A ^^^ m) s.P }

/-- `Z <- ((A & m) == 0); N <- m[7]; V <- m[6]` (R189). -/
def opBit : ReadOp := fun m s =>
  { s with P := { s.P with Z := s.A &&& m == 0#8, N := m.getLsbD 7, V := m.getLsbD 6 } }

/-- Add with carry, binary or decimal by `D` (R190). -/
def opAdc : ReadOp := fun m s =>
  let x := adc s.platform.decimal s.A m s.P
  { s with A := x.r, P := arithFlags x s.P }

/-- Subtract with borrow, binary or decimal by `D` (R191). -/
def opSbc : ReadOp := fun m s =>
  let x := sbc s.platform.decimal s.A m s.P
  { s with A := x.r, P := arithFlags x s.P }

/-- `compare(A, m)` (R192). -/
def opCmp : ReadOp := fun m s => { s with P := compareFlags s.A m s.P }

/-- `compare(X, m)` (R193). -/
def opCpx : ReadOp := fun m s => { s with P := compareFlags s.X m s.P }

/-- `compare(Y, m)` (R194). -/
def opCpy : ReadOp := fun m s => { s with P := compareFlags s.Y m s.P }

/-- `f(m) = u8(m + 1); setNZ(f(m))` (R195). -/
def opInc : RmwOp := fun m s => (m + 1, { s with P := setNZ (m + 1) s.P })

/-- `f(m) = u8(m - 1); setNZ(f(m))` (R196). -/
def opDec : RmwOp := fun m s => (m - 1, { s with P := setNZ (m - 1) s.P })

/-- `X <- u8(X + 1); setNZ(X)` (R197). -/
def opInx (s : State) : State := { s with X := s.X + 1, P := setNZ (s.X + 1) s.P }

/-- `Y <- u8(Y + 1); setNZ(Y)` (R198). -/
def opIny (s : State) : State := { s with Y := s.Y + 1, P := setNZ (s.Y + 1) s.P }

/-- `X <- u8(X - 1); setNZ(X)` (R199). -/
def opDex (s : State) : State := { s with X := s.X - 1, P := setNZ (s.X - 1) s.P }

/-- `Y <- u8(Y - 1); setNZ(Y)` (R200). -/
def opDey (s : State) : State := { s with Y := s.Y - 1, P := setNZ (s.Y - 1) s.P }

/-! ## ORA -/

/-- The table of `ORA` izx, `0x01` (R186). -/
def progOraIzx : Prog := readProg 0x01#8 .izx opOra

/-- `ORA` izx, `0x01` (R186). -/
def execOraIzx (d : Byte) (s : State) : Out := progOraIzx.exec2 d s

/-- The table of `ORA` zp, `0x05` (R186). -/
def progOraZp : Prog := readProg 0x05#8 .zp opOra

/-- `ORA` zp, `0x05` (R186). -/
def execOraZp (d : Byte) (s : State) : Out := progOraZp.exec2 d s

/-- The table of `ORA` imm, `0x09` (R186). -/
def progOraImm : Prog := readProg 0x09#8 .imm opOra

/-- `ORA` imm, `0x09` (R186). -/
def execOraImm (d : Byte) (s : State) : Out := progOraImm.exec2 d s

/-- The table of `ORA` abs, `0x0D` (R186). -/
def progOraAbs : Prog := readProg 0x0D#8 .abs opOra

/-- `ORA` abs, `0x0D` (R186). -/
def execOraAbs (a : Addr) (s : State) : Out := progOraAbs.exec3 a s

/-- The table of `ORA` izy, `0x11` (R186). -/
def progOraIzy : Prog := readProg 0x11#8 .izy opOra

/-- `ORA` izy, `0x11` (R186). -/
def execOraIzy (d : Byte) (s : State) : Out := progOraIzy.exec2 d s

/-- The table of `ORA` zpx, `0x15` (R186). -/
def progOraZpx : Prog := readProg 0x15#8 .zpx opOra

/-- `ORA` zpx, `0x15` (R186). -/
def execOraZpx (d : Byte) (s : State) : Out := progOraZpx.exec2 d s

/-- The table of `ORA` aby, `0x19` (R186). -/
def progOraAby : Prog := readProg 0x19#8 .aby opOra

/-- `ORA` aby, `0x19` (R186). -/
def execOraAby (a : Addr) (s : State) : Out := progOraAby.exec3 a s

/-- The table of `ORA` abx, `0x1D` (R186). -/
def progOraAbx : Prog := readProg 0x1D#8 .abx opOra

/-- `ORA` abx, `0x1D` (R186). -/
def execOraAbx (a : Addr) (s : State) : Out := progOraAbx.exec3 a s

/-! ## AND -/

/-- The table of `AND` izx, `0x21` (R187). -/
def progAndIzx : Prog := readProg 0x21#8 .izx opAnd

/-- `AND` izx, `0x21` (R187). -/
def execAndIzx (d : Byte) (s : State) : Out := progAndIzx.exec2 d s

/-- The table of `AND` zp, `0x25` (R187). -/
def progAndZp : Prog := readProg 0x25#8 .zp opAnd

/-- `AND` zp, `0x25` (R187). -/
def execAndZp (d : Byte) (s : State) : Out := progAndZp.exec2 d s

/-- The table of `AND` imm, `0x29` (R187). -/
def progAndImm : Prog := readProg 0x29#8 .imm opAnd

/-- `AND` imm, `0x29` (R187). -/
def execAndImm (d : Byte) (s : State) : Out := progAndImm.exec2 d s

/-- The table of `AND` abs, `0x2D` (R187). -/
def progAndAbs : Prog := readProg 0x2D#8 .abs opAnd

/-- `AND` abs, `0x2D` (R187). -/
def execAndAbs (a : Addr) (s : State) : Out := progAndAbs.exec3 a s

/-- The table of `AND` izy, `0x31` (R187). -/
def progAndIzy : Prog := readProg 0x31#8 .izy opAnd

/-- `AND` izy, `0x31` (R187). -/
def execAndIzy (d : Byte) (s : State) : Out := progAndIzy.exec2 d s

/-- The table of `AND` zpx, `0x35` (R187). -/
def progAndZpx : Prog := readProg 0x35#8 .zpx opAnd

/-- `AND` zpx, `0x35` (R187). -/
def execAndZpx (d : Byte) (s : State) : Out := progAndZpx.exec2 d s

/-- The table of `AND` aby, `0x39` (R187). -/
def progAndAby : Prog := readProg 0x39#8 .aby opAnd

/-- `AND` aby, `0x39` (R187). -/
def execAndAby (a : Addr) (s : State) : Out := progAndAby.exec3 a s

/-- The table of `AND` abx, `0x3D` (R187). -/
def progAndAbx : Prog := readProg 0x3D#8 .abx opAnd

/-- `AND` abx, `0x3D` (R187). -/
def execAndAbx (a : Addr) (s : State) : Out := progAndAbx.exec3 a s

/-! ## EOR -/

/-- The table of `EOR` izx, `0x41` (R188). -/
def progEorIzx : Prog := readProg 0x41#8 .izx opEor

/-- `EOR` izx, `0x41` (R188). -/
def execEorIzx (d : Byte) (s : State) : Out := progEorIzx.exec2 d s

/-- The table of `EOR` zp, `0x45` (R188). -/
def progEorZp : Prog := readProg 0x45#8 .zp opEor

/-- `EOR` zp, `0x45` (R188). -/
def execEorZp (d : Byte) (s : State) : Out := progEorZp.exec2 d s

/-- The table of `EOR` imm, `0x49` (R188). -/
def progEorImm : Prog := readProg 0x49#8 .imm opEor

/-- `EOR` imm, `0x49` (R188). -/
def execEorImm (d : Byte) (s : State) : Out := progEorImm.exec2 d s

/-- The table of `EOR` abs, `0x4D` (R188). -/
def progEorAbs : Prog := readProg 0x4D#8 .abs opEor

/-- `EOR` abs, `0x4D` (R188). -/
def execEorAbs (a : Addr) (s : State) : Out := progEorAbs.exec3 a s

/-- The table of `EOR` izy, `0x51` (R188). -/
def progEorIzy : Prog := readProg 0x51#8 .izy opEor

/-- `EOR` izy, `0x51` (R188). -/
def execEorIzy (d : Byte) (s : State) : Out := progEorIzy.exec2 d s

/-- The table of `EOR` zpx, `0x55` (R188). -/
def progEorZpx : Prog := readProg 0x55#8 .zpx opEor

/-- `EOR` zpx, `0x55` (R188). -/
def execEorZpx (d : Byte) (s : State) : Out := progEorZpx.exec2 d s

/-- The table of `EOR` aby, `0x59` (R188). -/
def progEorAby : Prog := readProg 0x59#8 .aby opEor

/-- `EOR` aby, `0x59` (R188). -/
def execEorAby (a : Addr) (s : State) : Out := progEorAby.exec3 a s

/-- The table of `EOR` abx, `0x5D` (R188). -/
def progEorAbx : Prog := readProg 0x5D#8 .abx opEor

/-- `EOR` abx, `0x5D` (R188). -/
def execEorAbx (a : Addr) (s : State) : Out := progEorAbx.exec3 a s

/-! ## BIT -/

/-- The table of `BIT` zp, `0x24` (R189). -/
def progBitZp : Prog := readProg 0x24#8 .zp opBit

/-- `BIT` zp, `0x24` (R189). -/
def execBitZp (d : Byte) (s : State) : Out := progBitZp.exec2 d s

/-- The table of `BIT` abs, `0x2C` (R189). -/
def progBitAbs : Prog := readProg 0x2C#8 .abs opBit

/-- `BIT` abs, `0x2C` (R189). -/
def execBitAbs (a : Addr) (s : State) : Out := progBitAbs.exec3 a s

/-! ## ADC -/

/-- The table of `ADC` izx, `0x61` (R190). -/
def progAdcIzx : Prog := readProg 0x61#8 .izx opAdc

/-- `ADC` izx, `0x61` (R190). -/
def execAdcIzx (d : Byte) (s : State) : Out := progAdcIzx.exec2 d s

/-- The table of `ADC` zp, `0x65` (R190). -/
def progAdcZp : Prog := readProg 0x65#8 .zp opAdc

/-- `ADC` zp, `0x65` (R190). -/
def execAdcZp (d : Byte) (s : State) : Out := progAdcZp.exec2 d s

/-- The table of `ADC` imm, `0x69` (R190). -/
def progAdcImm : Prog := readProg 0x69#8 .imm opAdc

/-- `ADC` imm, `0x69` (R190). -/
def execAdcImm (d : Byte) (s : State) : Out := progAdcImm.exec2 d s

/-- The table of `ADC` abs, `0x6D` (R190). -/
def progAdcAbs : Prog := readProg 0x6D#8 .abs opAdc

/-- `ADC` abs, `0x6D` (R190). -/
def execAdcAbs (a : Addr) (s : State) : Out := progAdcAbs.exec3 a s

/-- The table of `ADC` izy, `0x71` (R190). -/
def progAdcIzy : Prog := readProg 0x71#8 .izy opAdc

/-- `ADC` izy, `0x71` (R190). -/
def execAdcIzy (d : Byte) (s : State) : Out := progAdcIzy.exec2 d s

/-- The table of `ADC` zpx, `0x75` (R190). -/
def progAdcZpx : Prog := readProg 0x75#8 .zpx opAdc

/-- `ADC` zpx, `0x75` (R190). -/
def execAdcZpx (d : Byte) (s : State) : Out := progAdcZpx.exec2 d s

/-- The table of `ADC` aby, `0x79` (R190). -/
def progAdcAby : Prog := readProg 0x79#8 .aby opAdc

/-- `ADC` aby, `0x79` (R190). -/
def execAdcAby (a : Addr) (s : State) : Out := progAdcAby.exec3 a s

/-- The table of `ADC` abx, `0x7D` (R190). -/
def progAdcAbx : Prog := readProg 0x7D#8 .abx opAdc

/-- `ADC` abx, `0x7D` (R190). -/
def execAdcAbx (a : Addr) (s : State) : Out := progAdcAbx.exec3 a s

/-! ## SBC -/

/-- The table of `SBC` izx, `0xE1` (R191). -/
def progSbcIzx : Prog := readProg 0xE1#8 .izx opSbc

/-- `SBC` izx, `0xE1` (R191). -/
def execSbcIzx (d : Byte) (s : State) : Out := progSbcIzx.exec2 d s

/-- The table of `SBC` zp, `0xE5` (R191). -/
def progSbcZp : Prog := readProg 0xE5#8 .zp opSbc

/-- `SBC` zp, `0xE5` (R191). -/
def execSbcZp (d : Byte) (s : State) : Out := progSbcZp.exec2 d s

/-- The table of `SBC` imm, `0xE9` (R191). -/
def progSbcImm : Prog := readProg 0xE9#8 .imm opSbc

/-- `SBC` imm, `0xE9` (R191). -/
def execSbcImm (d : Byte) (s : State) : Out := progSbcImm.exec2 d s

/-- The table of `SBC` abs, `0xED` (R191). -/
def progSbcAbs : Prog := readProg 0xED#8 .abs opSbc

/-- `SBC` abs, `0xED` (R191). -/
def execSbcAbs (a : Addr) (s : State) : Out := progSbcAbs.exec3 a s

/-- The table of `SBC` izy, `0xF1` (R191). -/
def progSbcIzy : Prog := readProg 0xF1#8 .izy opSbc

/-- `SBC` izy, `0xF1` (R191). -/
def execSbcIzy (d : Byte) (s : State) : Out := progSbcIzy.exec2 d s

/-- The table of `SBC` zpx, `0xF5` (R191). -/
def progSbcZpx : Prog := readProg 0xF5#8 .zpx opSbc

/-- `SBC` zpx, `0xF5` (R191). -/
def execSbcZpx (d : Byte) (s : State) : Out := progSbcZpx.exec2 d s

/-- The table of `SBC` aby, `0xF9` (R191). -/
def progSbcAby : Prog := readProg 0xF9#8 .aby opSbc

/-- `SBC` aby, `0xF9` (R191). -/
def execSbcAby (a : Addr) (s : State) : Out := progSbcAby.exec3 a s

/-- The table of `SBC` abx, `0xFD` (R191). -/
def progSbcAbx : Prog := readProg 0xFD#8 .abx opSbc

/-- `SBC` abx, `0xFD` (R191). -/
def execSbcAbx (a : Addr) (s : State) : Out := progSbcAbx.exec3 a s

/-! ## CMP -/

/-- The table of `CMP` izx, `0xC1` (R192). -/
def progCmpIzx : Prog := readProg 0xC1#8 .izx opCmp

/-- `CMP` izx, `0xC1` (R192). -/
def execCmpIzx (d : Byte) (s : State) : Out := progCmpIzx.exec2 d s

/-- The table of `CMP` zp, `0xC5` (R192). -/
def progCmpZp : Prog := readProg 0xC5#8 .zp opCmp

/-- `CMP` zp, `0xC5` (R192). -/
def execCmpZp (d : Byte) (s : State) : Out := progCmpZp.exec2 d s

/-- The table of `CMP` imm, `0xC9` (R192). -/
def progCmpImm : Prog := readProg 0xC9#8 .imm opCmp

/-- `CMP` imm, `0xC9` (R192). -/
def execCmpImm (d : Byte) (s : State) : Out := progCmpImm.exec2 d s

/-- The table of `CMP` abs, `0xCD` (R192). -/
def progCmpAbs : Prog := readProg 0xCD#8 .abs opCmp

/-- `CMP` abs, `0xCD` (R192). -/
def execCmpAbs (a : Addr) (s : State) : Out := progCmpAbs.exec3 a s

/-- The table of `CMP` izy, `0xD1` (R192). -/
def progCmpIzy : Prog := readProg 0xD1#8 .izy opCmp

/-- `CMP` izy, `0xD1` (R192). -/
def execCmpIzy (d : Byte) (s : State) : Out := progCmpIzy.exec2 d s

/-- The table of `CMP` zpx, `0xD5` (R192). -/
def progCmpZpx : Prog := readProg 0xD5#8 .zpx opCmp

/-- `CMP` zpx, `0xD5` (R192). -/
def execCmpZpx (d : Byte) (s : State) : Out := progCmpZpx.exec2 d s

/-- The table of `CMP` aby, `0xD9` (R192). -/
def progCmpAby : Prog := readProg 0xD9#8 .aby opCmp

/-- `CMP` aby, `0xD9` (R192). -/
def execCmpAby (a : Addr) (s : State) : Out := progCmpAby.exec3 a s

/-- The table of `CMP` abx, `0xDD` (R192). -/
def progCmpAbx : Prog := readProg 0xDD#8 .abx opCmp

/-- `CMP` abx, `0xDD` (R192). -/
def execCmpAbx (a : Addr) (s : State) : Out := progCmpAbx.exec3 a s

/-! ## CPX -/

/-- The table of `CPX` imm, `0xE0` (R193). -/
def progCpxImm : Prog := readProg 0xE0#8 .imm opCpx

/-- `CPX` imm, `0xE0` (R193). -/
def execCpxImm (d : Byte) (s : State) : Out := progCpxImm.exec2 d s

/-- The table of `CPX` zp, `0xE4` (R193). -/
def progCpxZp : Prog := readProg 0xE4#8 .zp opCpx

/-- `CPX` zp, `0xE4` (R193). -/
def execCpxZp (d : Byte) (s : State) : Out := progCpxZp.exec2 d s

/-- The table of `CPX` abs, `0xEC` (R193). -/
def progCpxAbs : Prog := readProg 0xEC#8 .abs opCpx

/-- `CPX` abs, `0xEC` (R193). -/
def execCpxAbs (a : Addr) (s : State) : Out := progCpxAbs.exec3 a s

/-! ## CPY -/

/-- The table of `CPY` imm, `0xC0` (R194). -/
def progCpyImm : Prog := readProg 0xC0#8 .imm opCpy

/-- `CPY` imm, `0xC0` (R194). -/
def execCpyImm (d : Byte) (s : State) : Out := progCpyImm.exec2 d s

/-- The table of `CPY` zp, `0xC4` (R194). -/
def progCpyZp : Prog := readProg 0xC4#8 .zp opCpy

/-- `CPY` zp, `0xC4` (R194). -/
def execCpyZp (d : Byte) (s : State) : Out := progCpyZp.exec2 d s

/-- The table of `CPY` abs, `0xCC` (R194). -/
def progCpyAbs : Prog := readProg 0xCC#8 .abs opCpy

/-- `CPY` abs, `0xCC` (R194). -/
def execCpyAbs (a : Addr) (s : State) : Out := progCpyAbs.exec3 a s

/-! ## INC -/

/-- The table of `INC` zp, `0xE6` (R195). -/
def progIncZp : Prog := rmwProg 0xE6#8 .zp opInc

/-- `INC` zp, `0xE6` (R195). -/
def execIncZp (d : Byte) (s : State) : Out := progIncZp.exec2 d s

/-- The table of `INC` abs, `0xEE` (R195). -/
def progIncAbs : Prog := rmwProg 0xEE#8 .abs opInc

/-- `INC` abs, `0xEE` (R195). -/
def execIncAbs (a : Addr) (s : State) : Out := progIncAbs.exec3 a s

/-- The table of `INC` zpx, `0xF6` (R195). -/
def progIncZpx : Prog := rmwProg 0xF6#8 .zpx opInc

/-- `INC` zpx, `0xF6` (R195). -/
def execIncZpx (d : Byte) (s : State) : Out := progIncZpx.exec2 d s

/-- The table of `INC` abx, `0xFE` (R195). -/
def progIncAbx : Prog := rmwProg 0xFE#8 .abx opInc

/-- `INC` abx, `0xFE` (R195). -/
def execIncAbx (a : Addr) (s : State) : Out := progIncAbx.exec3 a s

/-! ## DEC -/

/-- The table of `DEC` zp, `0xC6` (R196). -/
def progDecZp : Prog := rmwProg 0xC6#8 .zp opDec

/-- `DEC` zp, `0xC6` (R196). -/
def execDecZp (d : Byte) (s : State) : Out := progDecZp.exec2 d s

/-- The table of `DEC` abs, `0xCE` (R196). -/
def progDecAbs : Prog := rmwProg 0xCE#8 .abs opDec

/-- `DEC` abs, `0xCE` (R196). -/
def execDecAbs (a : Addr) (s : State) : Out := progDecAbs.exec3 a s

/-- The table of `DEC` zpx, `0xD6` (R196). -/
def progDecZpx : Prog := rmwProg 0xD6#8 .zpx opDec

/-- `DEC` zpx, `0xD6` (R196). -/
def execDecZpx (d : Byte) (s : State) : Out := progDecZpx.exec2 d s

/-- The table of `DEC` abx, `0xDE` (R196). -/
def progDecAbx : Prog := rmwProg 0xDE#8 .abx opDec

/-- `DEC` abx, `0xDE` (R196). -/
def execDecAbx (a : Addr) (s : State) : Out := progDecAbx.exec3 a s

/-! ## INX -/

/-- The table of `INX`, `0xE8` (R197). -/
def progInx : Prog := impliedProg 0xE8#8 opInx

/-- `INX`, `0xE8` (R197). -/
def execInx (s : State) : Out := progInx.exec1 s

/-! ## INY -/

/-- The table of `INY`, `0xC8` (R198). -/
def progIny : Prog := impliedProg 0xC8#8 opIny

/-- `INY`, `0xC8` (R198). -/
def execIny (s : State) : Out := progIny.exec1 s

/-! ## DEX -/

/-- The table of `DEX`, `0xCA` (R199). -/
def progDex : Prog := impliedProg 0xCA#8 opDex

/-- `DEX`, `0xCA` (R199). -/
def execDex (s : State) : Out := progDex.exec1 s

/-! ## DEY -/

/-- The table of `DEY`, `0x88` (R200). -/
def progDey : Prog := impliedProg 0x88#8 opDey

/-- `DEY`, `0x88` (R200). -/
def execDey (s : State) : Out := progDey.exec1 s

end Sys2Proof.Machine
end

