-- ==== Sys2Proof/Machine/Shift.lean ====
section
/-! DEFINITION. Shifts and rotates, on memory and on the accumulator (42_alu.md section 5). -/

namespace Sys2Proof.Machine

/-! ## Operations -/

/-- The memory form of a shift (R201 to R204): the result is the new memory value. -/
def shiftMemory (f : Byte → Flags → Byte × Flags) : RmwOp := fun m s => ((f m s.P).1, { s with P := (f m s.P).2 })

/-- The accumulator form of a shift (R118, R201 to R204): the result goes to `A`. -/
def shiftA (f : Byte → Flags → Byte × Flags) (s : State) : State := { s with A := (f s.A s.P).1, P := (f s.A s.P).2 }

/-! ## ASL -/

/-- The table of `ASL` zp, `0x06` (R201). -/
def progAslZp : Prog := rmwProg 0x06#8 .zp (shiftMemory shiftLeft)

/-- `ASL` zp, `0x06` (R201). -/
def execAslZp (d : Byte) (s : State) : Out := progAslZp.exec2 d s

/-- The table of `ASL` acc, `0x0A` (R201). -/
def progAslAcc : Prog := impliedProg 0x0A#8 (shiftA shiftLeft)

/-- `ASL` acc, `0x0A` (R201). -/
def execAslAcc (s : State) : Out := progAslAcc.exec1 s

/-- The table of `ASL` abs, `0x0E` (R201). -/
def progAslAbs : Prog := rmwProg 0x0E#8 .abs (shiftMemory shiftLeft)

/-- `ASL` abs, `0x0E` (R201). -/
def execAslAbs (a : Addr) (s : State) : Out := progAslAbs.exec3 a s

/-- The table of `ASL` zpx, `0x16` (R201). -/
def progAslZpx : Prog := rmwProg 0x16#8 .zpx (shiftMemory shiftLeft)

/-- `ASL` zpx, `0x16` (R201). -/
def execAslZpx (d : Byte) (s : State) : Out := progAslZpx.exec2 d s

/-- The table of `ASL` abx, `0x1E` (R201). -/
def progAslAbx : Prog := rmwProg 0x1E#8 .abx (shiftMemory shiftLeft)

/-- `ASL` abx, `0x1E` (R201). -/
def execAslAbx (a : Addr) (s : State) : Out := progAslAbx.exec3 a s

/-! ## LSR -/

/-- The table of `LSR` zp, `0x46` (R202). -/
def progLsrZp : Prog := rmwProg 0x46#8 .zp (shiftMemory shiftRight)

/-- `LSR` zp, `0x46` (R202). -/
def execLsrZp (d : Byte) (s : State) : Out := progLsrZp.exec2 d s

/-- The table of `LSR` acc, `0x4A` (R202). -/
def progLsrAcc : Prog := impliedProg 0x4A#8 (shiftA shiftRight)

/-- `LSR` acc, `0x4A` (R202). -/
def execLsrAcc (s : State) : Out := progLsrAcc.exec1 s

/-- The table of `LSR` abs, `0x4E` (R202). -/
def progLsrAbs : Prog := rmwProg 0x4E#8 .abs (shiftMemory shiftRight)

/-- `LSR` abs, `0x4E` (R202). -/
def execLsrAbs (a : Addr) (s : State) : Out := progLsrAbs.exec3 a s

/-- The table of `LSR` zpx, `0x56` (R202). -/
def progLsrZpx : Prog := rmwProg 0x56#8 .zpx (shiftMemory shiftRight)

/-- `LSR` zpx, `0x56` (R202). -/
def execLsrZpx (d : Byte) (s : State) : Out := progLsrZpx.exec2 d s

/-- The table of `LSR` abx, `0x5E` (R202). -/
def progLsrAbx : Prog := rmwProg 0x5E#8 .abx (shiftMemory shiftRight)

/-- `LSR` abx, `0x5E` (R202). -/
def execLsrAbx (a : Addr) (s : State) : Out := progLsrAbx.exec3 a s

/-! ## ROL -/

/-- The table of `ROL` zp, `0x26` (R203). -/
def progRolZp : Prog := rmwProg 0x26#8 .zp (shiftMemory rotateLeft)

/-- `ROL` zp, `0x26` (R203). -/
def execRolZp (d : Byte) (s : State) : Out := progRolZp.exec2 d s

/-- The table of `ROL` acc, `0x2A` (R203). -/
def progRolAcc : Prog := impliedProg 0x2A#8 (shiftA rotateLeft)

/-- `ROL` acc, `0x2A` (R203). -/
def execRolAcc (s : State) : Out := progRolAcc.exec1 s

/-- The table of `ROL` abs, `0x2E` (R203). -/
def progRolAbs : Prog := rmwProg 0x2E#8 .abs (shiftMemory rotateLeft)

/-- `ROL` abs, `0x2E` (R203). -/
def execRolAbs (a : Addr) (s : State) : Out := progRolAbs.exec3 a s

/-- The table of `ROL` zpx, `0x36` (R203). -/
def progRolZpx : Prog := rmwProg 0x36#8 .zpx (shiftMemory rotateLeft)

/-- `ROL` zpx, `0x36` (R203). -/
def execRolZpx (d : Byte) (s : State) : Out := progRolZpx.exec2 d s

/-- The table of `ROL` abx, `0x3E` (R203). -/
def progRolAbx : Prog := rmwProg 0x3E#8 .abx (shiftMemory rotateLeft)

/-- `ROL` abx, `0x3E` (R203). -/
def execRolAbx (a : Addr) (s : State) : Out := progRolAbx.exec3 a s

/-! ## ROR -/

/-- The table of `ROR` zp, `0x66` (R204). -/
def progRorZp : Prog := rmwProg 0x66#8 .zp (shiftMemory rotateRight)

/-- `ROR` zp, `0x66` (R204). -/
def execRorZp (d : Byte) (s : State) : Out := progRorZp.exec2 d s

/-- The table of `ROR` acc, `0x6A` (R204). -/
def progRorAcc : Prog := impliedProg 0x6A#8 (shiftA rotateRight)

/-- `ROR` acc, `0x6A` (R204). -/
def execRorAcc (s : State) : Out := progRorAcc.exec1 s

/-- The table of `ROR` abs, `0x6E` (R204). -/
def progRorAbs : Prog := rmwProg 0x6E#8 .abs (shiftMemory rotateRight)

/-- `ROR` abs, `0x6E` (R204). -/
def execRorAbs (a : Addr) (s : State) : Out := progRorAbs.exec3 a s

/-- The table of `ROR` zpx, `0x76` (R204). -/
def progRorZpx : Prog := rmwProg 0x76#8 .zpx (shiftMemory rotateRight)

/-- `ROR` zpx, `0x76` (R204). -/
def execRorZpx (d : Byte) (s : State) : Out := progRorZpx.exec2 d s

/-- The table of `ROR` abx, `0x7E` (R204). -/
def progRorAbx : Prog := rmwProg 0x7E#8 .abx (shiftMemory rotateRight)

/-- `ROR` abx, `0x7E` (R204). -/
def execRorAbx (a : Addr) (s : State) : Out := progRorAbx.exec3 a s

end Sys2Proof.Machine
end

