-- ==== Sys2Proof/Machine/Undocumented.lean ====
section
/-! DEFINITION. The undocumented opcodes (45_undocumented.md): the stable ones under `UNDOC_POLICY = annex`, `JAM`, and
the unstable ones, which every policy refuses. -/

namespace Sys2Proof.Machine

/-! ## Policy and operations -/

/-- The policy (R270): under `refuse` an undocumented opcode has no meaning. -/
def annexed (op : Byte) (s : State) (meaning : Out) : Out :=
  match s.undoc with
  | .refuse => .refused (.undocumentedOpcode op)
  | .annex => meaning

/-- The unstable opcodes (R286 to R292), refused under every policy. -/
def unstable (op : Byte) : Out := .refused (.unstableOpcode op)

/-- A shift or step of memory followed by an operation on the new value (R273 to R276, R279, R280). -/
def rmwThen (f : RmwOp) (op : ReadOp) : RmwOp := fun m s => ((f m s).1, op (f m s).1 (f m s).2)

/-- The byte read is discarded (R271). -/
def opDiscard : ReadOp := fun _ s => s

/-- `SLO` (R273): shift left, then OR into `A`. -/
def opSlo : RmwOp := rmwThen (shiftMemory shiftLeft) opOra

/-- `RLA` (R274): rotate left, then AND into `A`. -/
def opRla : RmwOp := rmwThen (shiftMemory rotateLeft) opAnd

/-- `SRE` (R275): shift right, then EOR into `A`. -/
def opSre : RmwOp := rmwThen (shiftMemory shiftRight) opEor

/-- `RRA` (R276): rotate right, then `ADC` with the carry just produced. -/
def opRra : RmwOp := rmwThen (shiftMemory rotateRight) opAdc

/-- `DCP` (R279): decrement, then compare with `A`. -/
def opDcp : RmwOp := rmwThen opDec opCmp

/-- `ISC` (R280): increment, then `SBC`. -/
def opIsc : RmwOp := rmwThen opInc opSbc

/-- `A & X`, the byte `SAX` stores (R277). -/
def valSax (s : State) : Byte := s.A &&& s.X

/-- `A <- m; X <- m; setNZ(m)` (R278). -/
def opLax : ReadOp := fun m s => { s with A := m, X := m, P := setNZ m s.P }

/-- `A <- A & m; setNZ(A); C <- A[7]` (R281). -/
def opAnc : ReadOp := fun m s =>
  let r := s.A &&& m
  { s with A := r, P := { setNZ r s.P with C := r.getLsbD 7 } }

/-- `t <- A & m; C <- t[0]; A <- t >> 1; setNZ(A)` (R282). -/
def opAlr : ReadOp := fun m s =>
  { s with A := (shiftRight (s.A &&& m) s.P).1, P := (shiftRight (s.A &&& m) s.P).2 }

/-- `(t >> 1) | (C << 7)` of `ARR` (R283). -/
def arrRotate (t : Byte) (c : Bool) : Byte := (t >>> 1) ||| ((BitVec.ofBool c).setWidth 8 <<< 7)

/-- `ARR` with `D = 0` (R283). -/
def arrBinary (t : Byte) (p : Flags) : Byte × Flags :=
  let r := arrRotate t p.C
  (r, { setNZ r p with C := r.getLsbD 6, V := r.getLsbD 6 != r.getLsbD 5 })

/-- `ARR` with `D = 1` (R283). DESIGN CHOICE, unsafe: log entry 22. -/
def arrDecimal (t : Byte) (p : Flags) : Byte × Flags :=
  let r := arrRotate t p.C
  let low := (t &&& 0x0F#8).toNat + (t &&& 0x01#8).toNat
  let high := (t &&& 0xF0#8).toNat + (t &&& 0x10#8).toNat
  let r₁ := if 5 < low then (r &&& 0xF0#8) ||| ((r + 6) &&& 0x0F#8) else r
  let r₂ := if 0x50 < high then r₁ + 0x60 else r₁
  (r₂, { p with N := p.C, Z := r == 0#8, V := (r ^^^ t).getLsbD 6, C := 0x50 < high })

/-- `ARR` (R283). -/
def opArr : ReadOp := fun m s =>
  let x := if s.P.D then arrDecimal (s.A &&& m) s.P else arrBinary (s.A &&& m) s.P
  { s with A := x.1, P := x.2 }

/-- `SBX` (R284): `X <- (A & X) - m`, with `C` and `setNZ` as a comparison sets them, no borrow in. -/
def opSbx : ReadOp := fun m s =>
  let t := s.A &&& s.X
  { s with X := t - m, P := setNZ (t - m) { s.P with C := m.toNat ≤ t.toNat } }

/-- Cycle 2 of `JAM` (R272): one further read of `PC`, after which no boundary is ever reached. -/
def jamCycle : Cycle := dummyPC goOn

/-! ## NOP -/

/-- The table of `NOP` zp, `0x04` (R271). -/
def progNopZp04 : Prog := readProg 0x04#8 .zp opDiscard

/-- `NOP` zp, `0x04` (R271). -/
def execNopZp04 (d : Byte) (s : State) : Out := annexed 0x04#8 s (progNopZp04.exec2 d s)

/-- The table of `NOP` abs, `0x0C` (R271). -/
def progNopAbs0C : Prog := readProg 0x0C#8 .abs opDiscard

/-- `NOP` abs, `0x0C` (R271). -/
def execNopAbs0C (a : Addr) (s : State) : Out := annexed 0x0C#8 s (progNopAbs0C.exec3 a s)

/-- The table of `NOP` zpx, `0x14` (R271). -/
def progNopZpx14 : Prog := readProg 0x14#8 .zpx opDiscard

/-- `NOP` zpx, `0x14` (R271). -/
def execNopZpx14 (d : Byte) (s : State) : Out := annexed 0x14#8 s (progNopZpx14.exec2 d s)

/-- The table of `NOP`, `0x1A` (R271). -/
def progNopImp1A : Prog := impliedProg 0x1A#8 id

/-- `NOP`, `0x1A` (R271). -/
def execNopImp1A (s : State) : Out := annexed 0x1A#8 s (progNopImp1A.exec1 s)

/-- The table of `NOP` abx, `0x1C` (R271). -/
def progNopAbx1C : Prog := readProg 0x1C#8 .abx opDiscard

/-- `NOP` abx, `0x1C` (R271). -/
def execNopAbx1C (a : Addr) (s : State) : Out := annexed 0x1C#8 s (progNopAbx1C.exec3 a s)

/-- The table of `NOP` zpx, `0x34` (R271). -/
def progNopZpx34 : Prog := readProg 0x34#8 .zpx opDiscard

/-- `NOP` zpx, `0x34` (R271). -/
def execNopZpx34 (d : Byte) (s : State) : Out := annexed 0x34#8 s (progNopZpx34.exec2 d s)

/-- The table of `NOP`, `0x3A` (R271). -/
def progNopImp3A : Prog := impliedProg 0x3A#8 id

/-- `NOP`, `0x3A` (R271). -/
def execNopImp3A (s : State) : Out := annexed 0x3A#8 s (progNopImp3A.exec1 s)

/-- The table of `NOP` abx, `0x3C` (R271). -/
def progNopAbx3C : Prog := readProg 0x3C#8 .abx opDiscard

/-- `NOP` abx, `0x3C` (R271). -/
def execNopAbx3C (a : Addr) (s : State) : Out := annexed 0x3C#8 s (progNopAbx3C.exec3 a s)

/-- The table of `NOP` zp, `0x44` (R271). -/
def progNopZp44 : Prog := readProg 0x44#8 .zp opDiscard

/-- `NOP` zp, `0x44` (R271). -/
def execNopZp44 (d : Byte) (s : State) : Out := annexed 0x44#8 s (progNopZp44.exec2 d s)

/-- The table of `NOP` zpx, `0x54` (R271). -/
def progNopZpx54 : Prog := readProg 0x54#8 .zpx opDiscard

/-- `NOP` zpx, `0x54` (R271). -/
def execNopZpx54 (d : Byte) (s : State) : Out := annexed 0x54#8 s (progNopZpx54.exec2 d s)

/-- The table of `NOP`, `0x5A` (R271). -/
def progNopImp5A : Prog := impliedProg 0x5A#8 id

/-- `NOP`, `0x5A` (R271). -/
def execNopImp5A (s : State) : Out := annexed 0x5A#8 s (progNopImp5A.exec1 s)

/-- The table of `NOP` abx, `0x5C` (R271). -/
def progNopAbx5C : Prog := readProg 0x5C#8 .abx opDiscard

/-- `NOP` abx, `0x5C` (R271). -/
def execNopAbx5C (a : Addr) (s : State) : Out := annexed 0x5C#8 s (progNopAbx5C.exec3 a s)

/-- The table of `NOP` zp, `0x64` (R271). -/
def progNopZp64 : Prog := readProg 0x64#8 .zp opDiscard

/-- `NOP` zp, `0x64` (R271). -/
def execNopZp64 (d : Byte) (s : State) : Out := annexed 0x64#8 s (progNopZp64.exec2 d s)

/-- The table of `NOP` zpx, `0x74` (R271). -/
def progNopZpx74 : Prog := readProg 0x74#8 .zpx opDiscard

/-- `NOP` zpx, `0x74` (R271). -/
def execNopZpx74 (d : Byte) (s : State) : Out := annexed 0x74#8 s (progNopZpx74.exec2 d s)

/-- The table of `NOP`, `0x7A` (R271). -/
def progNopImp7A : Prog := impliedProg 0x7A#8 id

/-- `NOP`, `0x7A` (R271). -/
def execNopImp7A (s : State) : Out := annexed 0x7A#8 s (progNopImp7A.exec1 s)

/-- The table of `NOP` abx, `0x7C` (R271). -/
def progNopAbx7C : Prog := readProg 0x7C#8 .abx opDiscard

/-- `NOP` abx, `0x7C` (R271). -/
def execNopAbx7C (a : Addr) (s : State) : Out := annexed 0x7C#8 s (progNopAbx7C.exec3 a s)

/-- The table of `NOP` imm, `0x80` (R271). -/
def progNopImm80 : Prog := readProg 0x80#8 .imm opDiscard

/-- `NOP` imm, `0x80` (R271). -/
def execNopImm80 (d : Byte) (s : State) : Out := annexed 0x80#8 s (progNopImm80.exec2 d s)

/-- The table of `NOP` imm, `0x82` (R271). -/
def progNopImm82 : Prog := readProg 0x82#8 .imm opDiscard

/-- `NOP` imm, `0x82` (R271). -/
def execNopImm82 (d : Byte) (s : State) : Out := annexed 0x82#8 s (progNopImm82.exec2 d s)

/-- The table of `NOP` imm, `0x89` (R271). -/
def progNopImm89 : Prog := readProg 0x89#8 .imm opDiscard

/-- `NOP` imm, `0x89` (R271). -/
def execNopImm89 (d : Byte) (s : State) : Out := annexed 0x89#8 s (progNopImm89.exec2 d s)

/-- The table of `NOP` imm, `0xC2` (R271). -/
def progNopImmC2 : Prog := readProg 0xC2#8 .imm opDiscard

/-- `NOP` imm, `0xC2` (R271). -/
def execNopImmC2 (d : Byte) (s : State) : Out := annexed 0xC2#8 s (progNopImmC2.exec2 d s)

/-- The table of `NOP` zpx, `0xD4` (R271). -/
def progNopZpxD4 : Prog := readProg 0xD4#8 .zpx opDiscard

/-- `NOP` zpx, `0xD4` (R271). -/
def execNopZpxD4 (d : Byte) (s : State) : Out := annexed 0xD4#8 s (progNopZpxD4.exec2 d s)

/-- The table of `NOP`, `0xDA` (R271). -/
def progNopImpDA : Prog := impliedProg 0xDA#8 id

/-- `NOP`, `0xDA` (R271). -/
def execNopImpDA (s : State) : Out := annexed 0xDA#8 s (progNopImpDA.exec1 s)

/-- The table of `NOP` abx, `0xDC` (R271). -/
def progNopAbxDC : Prog := readProg 0xDC#8 .abx opDiscard

/-- `NOP` abx, `0xDC` (R271). -/
def execNopAbxDC (a : Addr) (s : State) : Out := annexed 0xDC#8 s (progNopAbxDC.exec3 a s)

/-- The table of `NOP` imm, `0xE2` (R271). -/
def progNopImmE2 : Prog := readProg 0xE2#8 .imm opDiscard

/-- `NOP` imm, `0xE2` (R271). -/
def execNopImmE2 (d : Byte) (s : State) : Out := annexed 0xE2#8 s (progNopImmE2.exec2 d s)

/-- The table of `NOP` zpx, `0xF4` (R271). -/
def progNopZpxF4 : Prog := readProg 0xF4#8 .zpx opDiscard

/-- `NOP` zpx, `0xF4` (R271). -/
def execNopZpxF4 (d : Byte) (s : State) : Out := annexed 0xF4#8 s (progNopZpxF4.exec2 d s)

/-- The table of `NOP`, `0xFA` (R271). -/
def progNopImpFA : Prog := impliedProg 0xFA#8 id

/-- `NOP`, `0xFA` (R271). -/
def execNopImpFA (s : State) : Out := annexed 0xFA#8 s (progNopImpFA.exec1 s)

/-- The table of `NOP` abx, `0xFC` (R271). -/
def progNopAbxFC : Prog := readProg 0xFC#8 .abx opDiscard

/-- `NOP` abx, `0xFC` (R271). -/
def execNopAbxFC (a : Addr) (s : State) : Out := annexed 0xFC#8 s (progNopAbxFC.exec3 a s)

/-! ## JAM -/

/-- The table of `JAM`, `0x02` (R272). -/
def progJam02 : Prog := oneByteProg 0x02#8 [jamCycle]

/-- `JAM`, `0x02` (R272). -/
def execJam02 (s : State) : Out := annexed 0x02#8 s (progJam02.exec1 s)

/-! ## SLO -/

/-- The table of `SLO` izx, `0x03` (R273). -/
def progSloIzx : Prog := rmwProg 0x03#8 .izx opSlo

/-- `SLO` izx, `0x03` (R273). -/
def execSloIzx (d : Byte) (s : State) : Out := annexed 0x03#8 s (progSloIzx.exec2 d s)

/-- The table of `SLO` zp, `0x07` (R273). -/
def progSloZp : Prog := rmwProg 0x07#8 .zp opSlo

/-- `SLO` zp, `0x07` (R273). -/
def execSloZp (d : Byte) (s : State) : Out := annexed 0x07#8 s (progSloZp.exec2 d s)

/-! ## ANC -/

/-- The table of `ANC` imm, `0x0B` (R281). -/
def progAncImm0B : Prog := readProg 0x0B#8 .imm opAnc

/-- `ANC` imm, `0x0B` (R281). -/
def execAncImm0B (d : Byte) (s : State) : Out := annexed 0x0B#8 s (progAncImm0B.exec2 d s)

/-! ## SLO -/

/-- The table of `SLO` abs, `0x0F` (R273). -/
def progSloAbs : Prog := rmwProg 0x0F#8 .abs opSlo

/-- `SLO` abs, `0x0F` (R273). -/
def execSloAbs (a : Addr) (s : State) : Out := annexed 0x0F#8 s (progSloAbs.exec3 a s)

/-! ## JAM -/

/-- The table of `JAM`, `0x12` (R272). -/
def progJam12 : Prog := oneByteProg 0x12#8 [jamCycle]

/-- `JAM`, `0x12` (R272). -/
def execJam12 (s : State) : Out := annexed 0x12#8 s (progJam12.exec1 s)

/-! ## SLO -/

/-- The table of `SLO` izy, `0x13` (R273). -/
def progSloIzy : Prog := rmwProg 0x13#8 .izy opSlo

/-- `SLO` izy, `0x13` (R273). -/
def execSloIzy (d : Byte) (s : State) : Out := annexed 0x13#8 s (progSloIzy.exec2 d s)

/-- The table of `SLO` zpx, `0x17` (R273). -/
def progSloZpx : Prog := rmwProg 0x17#8 .zpx opSlo

/-- `SLO` zpx, `0x17` (R273). -/
def execSloZpx (d : Byte) (s : State) : Out := annexed 0x17#8 s (progSloZpx.exec2 d s)

/-- The table of `SLO` aby, `0x1B` (R273). -/
def progSloAby : Prog := rmwProg 0x1B#8 .aby opSlo

/-- `SLO` aby, `0x1B` (R273). -/
def execSloAby (a : Addr) (s : State) : Out := annexed 0x1B#8 s (progSloAby.exec3 a s)

/-- The table of `SLO` abx, `0x1F` (R273). -/
def progSloAbx : Prog := rmwProg 0x1F#8 .abx opSlo

/-- `SLO` abx, `0x1F` (R273). -/
def execSloAbx (a : Addr) (s : State) : Out := annexed 0x1F#8 s (progSloAbx.exec3 a s)

/-! ## JAM -/

/-- The table of `JAM`, `0x22` (R272). -/
def progJam22 : Prog := oneByteProg 0x22#8 [jamCycle]

/-- `JAM`, `0x22` (R272). -/
def execJam22 (s : State) : Out := annexed 0x22#8 s (progJam22.exec1 s)

/-! ## RLA -/

/-- The table of `RLA` izx, `0x23` (R274). -/
def progRlaIzx : Prog := rmwProg 0x23#8 .izx opRla

/-- `RLA` izx, `0x23` (R274). -/
def execRlaIzx (d : Byte) (s : State) : Out := annexed 0x23#8 s (progRlaIzx.exec2 d s)

/-- The table of `RLA` zp, `0x27` (R274). -/
def progRlaZp : Prog := rmwProg 0x27#8 .zp opRla

/-- `RLA` zp, `0x27` (R274). -/
def execRlaZp (d : Byte) (s : State) : Out := annexed 0x27#8 s (progRlaZp.exec2 d s)

/-! ## ANC -/

/-- The table of `ANC` imm, `0x2B` (R281). -/
def progAncImm2B : Prog := readProg 0x2B#8 .imm opAnc

/-- `ANC` imm, `0x2B` (R281). -/
def execAncImm2B (d : Byte) (s : State) : Out := annexed 0x2B#8 s (progAncImm2B.exec2 d s)

/-! ## RLA -/

/-- The table of `RLA` abs, `0x2F` (R274). -/
def progRlaAbs : Prog := rmwProg 0x2F#8 .abs opRla

/-- `RLA` abs, `0x2F` (R274). -/
def execRlaAbs (a : Addr) (s : State) : Out := annexed 0x2F#8 s (progRlaAbs.exec3 a s)

/-! ## JAM -/

/-- The table of `JAM`, `0x32` (R272). -/
def progJam32 : Prog := oneByteProg 0x32#8 [jamCycle]

/-- `JAM`, `0x32` (R272). -/
def execJam32 (s : State) : Out := annexed 0x32#8 s (progJam32.exec1 s)

/-! ## RLA -/

/-- The table of `RLA` izy, `0x33` (R274). -/
def progRlaIzy : Prog := rmwProg 0x33#8 .izy opRla

/-- `RLA` izy, `0x33` (R274). -/
def execRlaIzy (d : Byte) (s : State) : Out := annexed 0x33#8 s (progRlaIzy.exec2 d s)

/-- The table of `RLA` zpx, `0x37` (R274). -/
def progRlaZpx : Prog := rmwProg 0x37#8 .zpx opRla

/-- `RLA` zpx, `0x37` (R274). -/
def execRlaZpx (d : Byte) (s : State) : Out := annexed 0x37#8 s (progRlaZpx.exec2 d s)

/-- The table of `RLA` aby, `0x3B` (R274). -/
def progRlaAby : Prog := rmwProg 0x3B#8 .aby opRla

/-- `RLA` aby, `0x3B` (R274). -/
def execRlaAby (a : Addr) (s : State) : Out := annexed 0x3B#8 s (progRlaAby.exec3 a s)

/-- The table of `RLA` abx, `0x3F` (R274). -/
def progRlaAbx : Prog := rmwProg 0x3F#8 .abx opRla

/-- `RLA` abx, `0x3F` (R274). -/
def execRlaAbx (a : Addr) (s : State) : Out := annexed 0x3F#8 s (progRlaAbx.exec3 a s)

/-! ## JAM -/

/-- The table of `JAM`, `0x42` (R272). -/
def progJam42 : Prog := oneByteProg 0x42#8 [jamCycle]

/-- `JAM`, `0x42` (R272). -/
def execJam42 (s : State) : Out := annexed 0x42#8 s (progJam42.exec1 s)

/-! ## SRE -/

/-- The table of `SRE` izx, `0x43` (R275). -/
def progSreIzx : Prog := rmwProg 0x43#8 .izx opSre

/-- `SRE` izx, `0x43` (R275). -/
def execSreIzx (d : Byte) (s : State) : Out := annexed 0x43#8 s (progSreIzx.exec2 d s)

/-- The table of `SRE` zp, `0x47` (R275). -/
def progSreZp : Prog := rmwProg 0x47#8 .zp opSre

/-- `SRE` zp, `0x47` (R275). -/
def execSreZp (d : Byte) (s : State) : Out := annexed 0x47#8 s (progSreZp.exec2 d s)

/-! ## ALR -/

/-- The table of `ALR` imm, `0x4B` (R282). -/
def progAlrImm : Prog := readProg 0x4B#8 .imm opAlr

/-- `ALR` imm, `0x4B` (R282). -/
def execAlrImm (d : Byte) (s : State) : Out := annexed 0x4B#8 s (progAlrImm.exec2 d s)

/-! ## SRE -/

/-- The table of `SRE` abs, `0x4F` (R275). -/
def progSreAbs : Prog := rmwProg 0x4F#8 .abs opSre

/-- `SRE` abs, `0x4F` (R275). -/
def execSreAbs (a : Addr) (s : State) : Out := annexed 0x4F#8 s (progSreAbs.exec3 a s)

/-! ## JAM -/

/-- The table of `JAM`, `0x52` (R272). -/
def progJam52 : Prog := oneByteProg 0x52#8 [jamCycle]

/-- `JAM`, `0x52` (R272). -/
def execJam52 (s : State) : Out := annexed 0x52#8 s (progJam52.exec1 s)

/-! ## SRE -/

/-- The table of `SRE` izy, `0x53` (R275). -/
def progSreIzy : Prog := rmwProg 0x53#8 .izy opSre

/-- `SRE` izy, `0x53` (R275). -/
def execSreIzy (d : Byte) (s : State) : Out := annexed 0x53#8 s (progSreIzy.exec2 d s)

/-- The table of `SRE` zpx, `0x57` (R275). -/
def progSreZpx : Prog := rmwProg 0x57#8 .zpx opSre

/-- `SRE` zpx, `0x57` (R275). -/
def execSreZpx (d : Byte) (s : State) : Out := annexed 0x57#8 s (progSreZpx.exec2 d s)

/-- The table of `SRE` aby, `0x5B` (R275). -/
def progSreAby : Prog := rmwProg 0x5B#8 .aby opSre

/-- `SRE` aby, `0x5B` (R275). -/
def execSreAby (a : Addr) (s : State) : Out := annexed 0x5B#8 s (progSreAby.exec3 a s)

/-- The table of `SRE` abx, `0x5F` (R275). -/
def progSreAbx : Prog := rmwProg 0x5F#8 .abx opSre

/-- `SRE` abx, `0x5F` (R275). -/
def execSreAbx (a : Addr) (s : State) : Out := annexed 0x5F#8 s (progSreAbx.exec3 a s)

/-! ## JAM -/

/-- The table of `JAM`, `0x62` (R272). -/
def progJam62 : Prog := oneByteProg 0x62#8 [jamCycle]

/-- `JAM`, `0x62` (R272). -/
def execJam62 (s : State) : Out := annexed 0x62#8 s (progJam62.exec1 s)

/-! ## RRA -/

/-- The table of `RRA` izx, `0x63` (R276). -/
def progRraIzx : Prog := rmwProg 0x63#8 .izx opRra

/-- `RRA` izx, `0x63` (R276). -/
def execRraIzx (d : Byte) (s : State) : Out := annexed 0x63#8 s (progRraIzx.exec2 d s)

/-- The table of `RRA` zp, `0x67` (R276). -/
def progRraZp : Prog := rmwProg 0x67#8 .zp opRra

/-- `RRA` zp, `0x67` (R276). -/
def execRraZp (d : Byte) (s : State) : Out := annexed 0x67#8 s (progRraZp.exec2 d s)

/-! ## ARR -/

/-- The table of `ARR` imm, `0x6B` (R283). -/
def progArrImm : Prog := readProg 0x6B#8 .imm opArr

/-- `ARR` imm, `0x6B` (R283). -/
def execArrImm (d : Byte) (s : State) : Out := annexed 0x6B#8 s (progArrImm.exec2 d s)

/-! ## RRA -/

/-- The table of `RRA` abs, `0x6F` (R276). -/
def progRraAbs : Prog := rmwProg 0x6F#8 .abs opRra

/-- `RRA` abs, `0x6F` (R276). -/
def execRraAbs (a : Addr) (s : State) : Out := annexed 0x6F#8 s (progRraAbs.exec3 a s)

/-! ## JAM -/

/-- The table of `JAM`, `0x72` (R272). -/
def progJam72 : Prog := oneByteProg 0x72#8 [jamCycle]

/-- `JAM`, `0x72` (R272). -/
def execJam72 (s : State) : Out := annexed 0x72#8 s (progJam72.exec1 s)

/-! ## RRA -/

/-- The table of `RRA` izy, `0x73` (R276). -/
def progRraIzy : Prog := rmwProg 0x73#8 .izy opRra

/-- `RRA` izy, `0x73` (R276). -/
def execRraIzy (d : Byte) (s : State) : Out := annexed 0x73#8 s (progRraIzy.exec2 d s)

/-- The table of `RRA` zpx, `0x77` (R276). -/
def progRraZpx : Prog := rmwProg 0x77#8 .zpx opRra

/-- `RRA` zpx, `0x77` (R276). -/
def execRraZpx (d : Byte) (s : State) : Out := annexed 0x77#8 s (progRraZpx.exec2 d s)

/-- The table of `RRA` aby, `0x7B` (R276). -/
def progRraAby : Prog := rmwProg 0x7B#8 .aby opRra

/-- `RRA` aby, `0x7B` (R276). -/
def execRraAby (a : Addr) (s : State) : Out := annexed 0x7B#8 s (progRraAby.exec3 a s)

/-- The table of `RRA` abx, `0x7F` (R276). -/
def progRraAbx : Prog := rmwProg 0x7F#8 .abx opRra

/-- `RRA` abx, `0x7F` (R276). -/
def execRraAbx (a : Addr) (s : State) : Out := annexed 0x7F#8 s (progRraAbx.exec3 a s)

/-! ## SAX -/

/-- The table of `SAX` izx, `0x83` (R277). -/
def progSaxIzx : Prog := writeProg 0x83#8 .izx valSax

/-- `SAX` izx, `0x83` (R277). -/
def execSaxIzx (d : Byte) (s : State) : Out := annexed 0x83#8 s (progSaxIzx.exec2 d s)

/-- The table of `SAX` zp, `0x87` (R277). -/
def progSaxZp : Prog := writeProg 0x87#8 .zp valSax

/-- `SAX` zp, `0x87` (R277). -/
def execSaxZp (d : Byte) (s : State) : Out := annexed 0x87#8 s (progSaxZp.exec2 d s)

/-! ## ANE -/

/-- `ANE` imm, `0x8B` (R286): unstable. -/
def execAneImm (_d : Byte) (_s : State) : Out := unstable 0x8B#8

/-! ## SAX -/

/-- The table of `SAX` abs, `0x8F` (R277). -/
def progSaxAbs : Prog := writeProg 0x8F#8 .abs valSax

/-- `SAX` abs, `0x8F` (R277). -/
def execSaxAbs (a : Addr) (s : State) : Out := annexed 0x8F#8 s (progSaxAbs.exec3 a s)

/-! ## JAM -/

/-- The table of `JAM`, `0x92` (R272). -/
def progJam92 : Prog := oneByteProg 0x92#8 [jamCycle]

/-- `JAM`, `0x92` (R272). -/
def execJam92 (s : State) : Out := annexed 0x92#8 s (progJam92.exec1 s)

/-! ## SHA -/

/-- `SHA` izy, `0x93` (R288): unstable. -/
def execShaIzy (_d : Byte) (_s : State) : Out := unstable 0x93#8

/-! ## SAX -/

/-- The table of `SAX` zpy, `0x97` (R277). -/
def progSaxZpy : Prog := writeProg 0x97#8 .zpy valSax

/-- `SAX` zpy, `0x97` (R277). -/
def execSaxZpy (d : Byte) (s : State) : Out := annexed 0x97#8 s (progSaxZpy.exec2 d s)

/-! ## TAS -/

/-- `TAS` aby, `0x9B` (R291): unstable. -/
def execTasAby (_a : Addr) (_s : State) : Out := unstable 0x9B#8

/-! ## SHY -/

/-- `SHY` abx, `0x9C` (R290): unstable. -/
def execShyAbx (_a : Addr) (_s : State) : Out := unstable 0x9C#8

/-! ## SHX -/

/-- `SHX` aby, `0x9E` (R289): unstable. -/
def execShxAby (_a : Addr) (_s : State) : Out := unstable 0x9E#8

/-! ## SHA -/

/-- `SHA` aby, `0x9F` (R288): unstable. -/
def execShaAby (_a : Addr) (_s : State) : Out := unstable 0x9F#8

/-! ## LAX -/

/-- The table of `LAX` izx, `0xA3` (R278). -/
def progLaxIzx : Prog := readProg 0xA3#8 .izx opLax

/-- `LAX` izx, `0xA3` (R278). -/
def execLaxIzx (d : Byte) (s : State) : Out := annexed 0xA3#8 s (progLaxIzx.exec2 d s)

/-- The table of `LAX` zp, `0xA7` (R278). -/
def progLaxZp : Prog := readProg 0xA7#8 .zp opLax

/-- `LAX` zp, `0xA7` (R278). -/
def execLaxZp (d : Byte) (s : State) : Out := annexed 0xA7#8 s (progLaxZp.exec2 d s)

/-! ## LXA -/

/-- `LXA` imm, `0xAB` (R287): unstable. -/
def execLxaImm (_d : Byte) (_s : State) : Out := unstable 0xAB#8

/-! ## LAX -/

/-- The table of `LAX` abs, `0xAF` (R278). -/
def progLaxAbs : Prog := readProg 0xAF#8 .abs opLax

/-- `LAX` abs, `0xAF` (R278). -/
def execLaxAbs (a : Addr) (s : State) : Out := annexed 0xAF#8 s (progLaxAbs.exec3 a s)

/-! ## JAM -/

/-- The table of `JAM`, `0xB2` (R272). -/
def progJamB2 : Prog := oneByteProg 0xB2#8 [jamCycle]

/-- `JAM`, `0xB2` (R272). -/
def execJamB2 (s : State) : Out := annexed 0xB2#8 s (progJamB2.exec1 s)

/-! ## LAX -/

/-- The table of `LAX` izy, `0xB3` (R278). -/
def progLaxIzy : Prog := readProg 0xB3#8 .izy opLax

/-- `LAX` izy, `0xB3` (R278). -/
def execLaxIzy (d : Byte) (s : State) : Out := annexed 0xB3#8 s (progLaxIzy.exec2 d s)

/-- The table of `LAX` zpy, `0xB7` (R278). -/
def progLaxZpy : Prog := readProg 0xB7#8 .zpy opLax

/-- `LAX` zpy, `0xB7` (R278). -/
def execLaxZpy (d : Byte) (s : State) : Out := annexed 0xB7#8 s (progLaxZpy.exec2 d s)

/-! ## LAS -/

/-- `LAS` aby, `0xBB` (R292): unstable. -/
def execLasAby (_a : Addr) (_s : State) : Out := unstable 0xBB#8

/-! ## LAX -/

/-- The table of `LAX` aby, `0xBF` (R278). -/
def progLaxAby : Prog := readProg 0xBF#8 .aby opLax

/-- `LAX` aby, `0xBF` (R278). -/
def execLaxAby (a : Addr) (s : State) : Out := annexed 0xBF#8 s (progLaxAby.exec3 a s)

/-! ## DCP -/

/-- The table of `DCP` izx, `0xC3` (R279). -/
def progDcpIzx : Prog := rmwProg 0xC3#8 .izx opDcp

/-- `DCP` izx, `0xC3` (R279). -/
def execDcpIzx (d : Byte) (s : State) : Out := annexed 0xC3#8 s (progDcpIzx.exec2 d s)

/-- The table of `DCP` zp, `0xC7` (R279). -/
def progDcpZp : Prog := rmwProg 0xC7#8 .zp opDcp

/-- `DCP` zp, `0xC7` (R279). -/
def execDcpZp (d : Byte) (s : State) : Out := annexed 0xC7#8 s (progDcpZp.exec2 d s)

/-! ## SBX -/

/-- The table of `SBX` imm, `0xCB` (R284). -/
def progSbxImm : Prog := readProg 0xCB#8 .imm opSbx

/-- `SBX` imm, `0xCB` (R284). -/
def execSbxImm (d : Byte) (s : State) : Out := annexed 0xCB#8 s (progSbxImm.exec2 d s)

/-! ## DCP -/

/-- The table of `DCP` abs, `0xCF` (R279). -/
def progDcpAbs : Prog := rmwProg 0xCF#8 .abs opDcp

/-- `DCP` abs, `0xCF` (R279). -/
def execDcpAbs (a : Addr) (s : State) : Out := annexed 0xCF#8 s (progDcpAbs.exec3 a s)

/-! ## JAM -/

/-- The table of `JAM`, `0xD2` (R272). -/
def progJamD2 : Prog := oneByteProg 0xD2#8 [jamCycle]

/-- `JAM`, `0xD2` (R272). -/
def execJamD2 (s : State) : Out := annexed 0xD2#8 s (progJamD2.exec1 s)

/-! ## DCP -/

/-- The table of `DCP` izy, `0xD3` (R279). -/
def progDcpIzy : Prog := rmwProg 0xD3#8 .izy opDcp

/-- `DCP` izy, `0xD3` (R279). -/
def execDcpIzy (d : Byte) (s : State) : Out := annexed 0xD3#8 s (progDcpIzy.exec2 d s)

/-- The table of `DCP` zpx, `0xD7` (R279). -/
def progDcpZpx : Prog := rmwProg 0xD7#8 .zpx opDcp

/-- `DCP` zpx, `0xD7` (R279). -/
def execDcpZpx (d : Byte) (s : State) : Out := annexed 0xD7#8 s (progDcpZpx.exec2 d s)

/-- The table of `DCP` aby, `0xDB` (R279). -/
def progDcpAby : Prog := rmwProg 0xDB#8 .aby opDcp

/-- `DCP` aby, `0xDB` (R279). -/
def execDcpAby (a : Addr) (s : State) : Out := annexed 0xDB#8 s (progDcpAby.exec3 a s)

/-- The table of `DCP` abx, `0xDF` (R279). -/
def progDcpAbx : Prog := rmwProg 0xDF#8 .abx opDcp

/-- `DCP` abx, `0xDF` (R279). -/
def execDcpAbx (a : Addr) (s : State) : Out := annexed 0xDF#8 s (progDcpAbx.exec3 a s)

/-! ## ISC -/

/-- The table of `ISC` izx, `0xE3` (R280). -/
def progIscIzx : Prog := rmwProg 0xE3#8 .izx opIsc

/-- `ISC` izx, `0xE3` (R280). -/
def execIscIzx (d : Byte) (s : State) : Out := annexed 0xE3#8 s (progIscIzx.exec2 d s)

/-- The table of `ISC` zp, `0xE7` (R280). -/
def progIscZp : Prog := rmwProg 0xE7#8 .zp opIsc

/-- `ISC` zp, `0xE7` (R280). -/
def execIscZp (d : Byte) (s : State) : Out := annexed 0xE7#8 s (progIscZp.exec2 d s)

/-! ## USBC -/

/-- The table of `USBC` imm, `0xEB` (R285). -/
def progUsbcImm : Prog := readProg 0xEB#8 .imm opSbc

/-- `USBC` imm, `0xEB` (R285). -/
def execUsbcImm (d : Byte) (s : State) : Out := annexed 0xEB#8 s (progUsbcImm.exec2 d s)

/-! ## ISC -/

/-- The table of `ISC` abs, `0xEF` (R280). -/
def progIscAbs : Prog := rmwProg 0xEF#8 .abs opIsc

/-- `ISC` abs, `0xEF` (R280). -/
def execIscAbs (a : Addr) (s : State) : Out := annexed 0xEF#8 s (progIscAbs.exec3 a s)

/-! ## JAM -/

/-- The table of `JAM`, `0xF2` (R272). -/
def progJamF2 : Prog := oneByteProg 0xF2#8 [jamCycle]

/-- `JAM`, `0xF2` (R272). -/
def execJamF2 (s : State) : Out := annexed 0xF2#8 s (progJamF2.exec1 s)

/-! ## ISC -/

/-- The table of `ISC` izy, `0xF3` (R280). -/
def progIscIzy : Prog := rmwProg 0xF3#8 .izy opIsc

/-- `ISC` izy, `0xF3` (R280). -/
def execIscIzy (d : Byte) (s : State) : Out := annexed 0xF3#8 s (progIscIzy.exec2 d s)

/-- The table of `ISC` zpx, `0xF7` (R280). -/
def progIscZpx : Prog := rmwProg 0xF7#8 .zpx opIsc

/-- `ISC` zpx, `0xF7` (R280). -/
def execIscZpx (d : Byte) (s : State) : Out := annexed 0xF7#8 s (progIscZpx.exec2 d s)

/-- The table of `ISC` aby, `0xFB` (R280). -/
def progIscAby : Prog := rmwProg 0xFB#8 .aby opIsc

/-- `ISC` aby, `0xFB` (R280). -/
def execIscAby (a : Addr) (s : State) : Out := annexed 0xFB#8 s (progIscAby.exec3 a s)

/-- The table of `ISC` abx, `0xFF` (R280). -/
def progIscAbx : Prog := rmwProg 0xFF#8 .abx opIsc

/-- `ISC` abx, `0xFF` (R280). -/
def execIscAbx (a : Addr) (s : State) : Out := annexed 0xFF#8 s (progIscAbx.exec3 a s)

end Sys2Proof.Machine
end

