-- ==== Sys2Proof/Machine/OpTable.lean ====
section
/-! DEFINITION. The cycle table of every opcode byte (R35, R95, R96, R97), which the clock step looks up by `IR`. -/

namespace Sys2Proof.Machine

/-- An entry: a documented opcode, an undocumented one that `annex` gives a meaning, or an unstable one. -/
inductive OpEntry where
  | documented (p : Prog)
  | annex (p : Prog)
  | unstable

/-- Row `0x` of R96's matrix. -/
def progRow0 : List OpEntry :=
  [ .documented progBrk, .documented progOraIzx, .annex progJam02, .annex progSloIzx,
    .annex progNopZp04, .documented progOraZp, .documented progAslZp, .annex progSloZp,
    .documented progPhp, .documented progOraImm, .documented progAslAcc, .annex progAncImm0B,
    .annex progNopAbs0C, .documented progOraAbs, .documented progAslAbs, .annex progSloAbs ]

/-- Row `1x` of R96's matrix. -/
def progRow1 : List OpEntry :=
  [ .documented progBpl, .documented progOraIzy, .annex progJam12, .annex progSloIzy,
    .annex progNopZpx14, .documented progOraZpx, .documented progAslZpx, .annex progSloZpx,
    .documented progClc, .documented progOraAby, .annex progNopImp1A, .annex progSloAby,
    .annex progNopAbx1C, .documented progOraAbx, .documented progAslAbx, .annex progSloAbx ]

/-- Row `2x` of R96's matrix. -/
def progRow2 : List OpEntry :=
  [ .documented progJsr, .documented progAndIzx, .annex progJam22, .annex progRlaIzx,
    .documented progBitZp, .documented progAndZp, .documented progRolZp, .annex progRlaZp,
    .documented progPlp, .documented progAndImm, .documented progRolAcc, .annex progAncImm2B,
    .documented progBitAbs, .documented progAndAbs, .documented progRolAbs, .annex progRlaAbs ]

/-- Row `3x` of R96's matrix. -/
def progRow3 : List OpEntry :=
  [ .documented progBmi, .documented progAndIzy, .annex progJam32, .annex progRlaIzy,
    .annex progNopZpx34, .documented progAndZpx, .documented progRolZpx, .annex progRlaZpx,
    .documented progSec, .documented progAndAby, .annex progNopImp3A, .annex progRlaAby,
    .annex progNopAbx3C, .documented progAndAbx, .documented progRolAbx, .annex progRlaAbx ]

/-- Row `4x` of R96's matrix. -/
def progRow4 : List OpEntry :=
  [ .documented progRti, .documented progEorIzx, .annex progJam42, .annex progSreIzx,
    .annex progNopZp44, .documented progEorZp, .documented progLsrZp, .annex progSreZp,
    .documented progPha, .documented progEorImm, .documented progLsrAcc, .annex progAlrImm,
    .documented progJmpAbs, .documented progEorAbs, .documented progLsrAbs, .annex progSreAbs ]

/-- Row `5x` of R96's matrix. -/
def progRow5 : List OpEntry :=
  [ .documented progBvc, .documented progEorIzy, .annex progJam52, .annex progSreIzy,
    .annex progNopZpx54, .documented progEorZpx, .documented progLsrZpx, .annex progSreZpx,
    .documented progCli, .documented progEorAby, .annex progNopImp5A, .annex progSreAby,
    .annex progNopAbx5C, .documented progEorAbx, .documented progLsrAbx, .annex progSreAbx ]

/-- Row `6x` of R96's matrix. -/
def progRow6 : List OpEntry :=
  [ .documented progRts, .documented progAdcIzx, .annex progJam62, .annex progRraIzx,
    .annex progNopZp64, .documented progAdcZp, .documented progRorZp, .annex progRraZp,
    .documented progPla, .documented progAdcImm, .documented progRorAcc, .annex progArrImm,
    .documented progJmpInd, .documented progAdcAbs, .documented progRorAbs, .annex progRraAbs ]

/-- Row `7x` of R96's matrix. -/
def progRow7 : List OpEntry :=
  [ .documented progBvs, .documented progAdcIzy, .annex progJam72, .annex progRraIzy,
    .annex progNopZpx74, .documented progAdcZpx, .documented progRorZpx, .annex progRraZpx,
    .documented progSei, .documented progAdcAby, .annex progNopImp7A, .annex progRraAby,
    .annex progNopAbx7C, .documented progAdcAbx, .documented progRorAbx, .annex progRraAbx ]

/-- Row `8x` of R96's matrix. -/
def progRow8 : List OpEntry :=
  [ .annex progNopImm80, .documented progStaIzx, .annex progNopImm82, .annex progSaxIzx,
    .documented progStyZp, .documented progStaZp, .documented progStxZp, .annex progSaxZp,
    .documented progDey, .annex progNopImm89, .documented progTxa, .unstable,
    .documented progStyAbs, .documented progStaAbs, .documented progStxAbs, .annex progSaxAbs ]

/-- Row `9x` of R96's matrix. -/
def progRow9 : List OpEntry :=
  [ .documented progBcc, .documented progStaIzy, .annex progJam92, .unstable,
    .documented progStyZpx, .documented progStaZpx, .documented progStxZpy, .annex progSaxZpy,
    .documented progTya, .documented progStaAby, .documented progTxs, .unstable,
    .unstable, .documented progStaAbx, .unstable, .unstable ]

/-- Row `Ax` of R96's matrix. -/
def progRowA : List OpEntry :=
  [ .documented progLdyImm, .documented progLdaIzx, .documented progLdxImm, .annex progLaxIzx,
    .documented progLdyZp, .documented progLdaZp, .documented progLdxZp, .annex progLaxZp,
    .documented progTay, .documented progLdaImm, .documented progTax, .unstable,
    .documented progLdyAbs, .documented progLdaAbs, .documented progLdxAbs, .annex progLaxAbs ]

/-- Row `Bx` of R96's matrix. -/
def progRowB : List OpEntry :=
  [ .documented progBcs, .documented progLdaIzy, .annex progJamB2, .annex progLaxIzy,
    .documented progLdyZpx, .documented progLdaZpx, .documented progLdxZpy, .annex progLaxZpy,
    .documented progClv, .documented progLdaAby, .documented progTsx, .unstable,
    .documented progLdyAbx, .documented progLdaAbx, .documented progLdxAby, .annex progLaxAby ]

/-- Row `Cx` of R96's matrix. -/
def progRowC : List OpEntry :=
  [ .documented progCpyImm, .documented progCmpIzx, .annex progNopImmC2, .annex progDcpIzx,
    .documented progCpyZp, .documented progCmpZp, .documented progDecZp, .annex progDcpZp,
    .documented progIny, .documented progCmpImm, .documented progDex, .annex progSbxImm,
    .documented progCpyAbs, .documented progCmpAbs, .documented progDecAbs, .annex progDcpAbs ]

/-- Row `Dx` of R96's matrix. -/
def progRowD : List OpEntry :=
  [ .documented progBne, .documented progCmpIzy, .annex progJamD2, .annex progDcpIzy,
    .annex progNopZpxD4, .documented progCmpZpx, .documented progDecZpx, .annex progDcpZpx,
    .documented progCld, .documented progCmpAby, .annex progNopImpDA, .annex progDcpAby,
    .annex progNopAbxDC, .documented progCmpAbx, .documented progDecAbx, .annex progDcpAbx ]

/-- Row `Ex` of R96's matrix. -/
def progRowE : List OpEntry :=
  [ .documented progCpxImm, .documented progSbcIzx, .annex progNopImmE2, .annex progIscIzx,
    .documented progCpxZp, .documented progSbcZp, .documented progIncZp, .annex progIscZp,
    .documented progInx, .documented progSbcImm, .documented progNop, .annex progUsbcImm,
    .documented progCpxAbs, .documented progSbcAbs, .documented progIncAbs, .annex progIscAbs ]

/-- Row `Fx` of R96's matrix. -/
def progRowF : List OpEntry :=
  [ .documented progBeq, .documented progSbcIzy, .annex progJamF2, .annex progIscIzy,
    .annex progNopZpxF4, .documented progSbcZpx, .documented progIncZpx, .annex progIscZpx,
    .documented progSed, .documented progSbcAby, .annex progNopImpFA, .annex progIscAby,
    .annex progNopAbxFC, .documented progSbcAbx, .documented progIncAbx, .annex progIscAbx ]

/-- The sixteen rows. -/
def progTable : List (List OpEntry) :=
  [ progRow0, progRow1, progRow2, progRow3, progRow4, progRow5, progRow6, progRow7,
    progRow8, progRow9, progRowA, progRowB, progRowC, progRowD, progRowE, progRowF ]

/-- The entry of an opcode byte: row by the high digit, column by the low one (R96). -/
def opEntry (op : Byte) : OpEntry := (progTable.getD (op.toNat / 16) []).getD (op.toNat % 16) .unstable

end Sys2Proof.Machine
end

