-- ==== Sys2Proof/Machine/Clock.lean ====
section
/-! DEFINITION. The clock step (R112): one cycle of the CPU, over the same cycle tables that the instructions' meanings
run; what a whole step does with a sequence already in progress; the queue's `push` and `execute` from outside the CPU;
and the driving loop's tick (R369). -/

namespace Sys2Proof.Machine

/-- Forget the accesses and events of the sequence before: the start of a new one. -/
def State.beginSequence (s : State) : State := { s with trace := [], traps := [] }

/-- A cycle that fetches the low operand byte. -/
def fetchLoCycle (k : Cycle) : Cycle := fun q s => k { q with lo := (fetchByte s).1 } (fetchByte s).2

/-- A cycle that fetches the high operand byte. -/
def fetchHiCycle (k : Cycle) : Cycle := fun q s => k { q with hi := (fetchByte s).1 } (fetchByte s).2

/-- The cycles of an instruction from cycle 2 on, its operand fetches included. -/
def Prog.cycles (p : Prog) : List Cycle :=
  match p.fetch with
  | 0 => p.tail
  | 1 => fetchLoCycle p.fin :: p.tail
  | _ => fetchLoCycle goOn :: fetchHiCycle p.fin :: p.tail

/-- The cycles of an opcode byte from cycle 2 on. -/
def opCycles (op : Byte) : List Cycle :=
  match opEntry op with
  | .documented p => p.cycles
  | .annex p => p.cycles
  | .unstable => []

/-- The cycles of a sequence from cycle `t` on: an opcode's list starts at cycle 2, after the fetch that chose it; a
pseudo-instruction's starts at cycle 1 (R32). -/
def cyclesFrom (ir : SeqKind) (t : Nat) : List Cycle :=
  match ir with
  | .op b => (opCycles b).drop (t - 2)
  | .irq => (interruptCycles irqVector id).drop (t - 1)
  | .nmi => (interruptCycles nmiVector (fun s => { s with nmiPending := false })).drop (t - 1)
  | .reset => resetCycles.drop (t - 1)

/-- Why an opcode byte has no meaning under the policy in force, if it has none (R270, R286 to R292). -/
def opRefusal (op : Byte) (s : State) : Option Refusal :=
  match opEntry op with
  | .documented _ => none
  | .annex _ => if s.undoc = .refuse then some (.undocumentedOpcode op) else none
  | .unstable => some (.unstableOpcode op)

/-- Cycle 1 of an instruction (R115): the opcode fetch. -/
def opcodeCycle (s : State) : Out :=
  let r := fetchByte s
  match opRefusal r.1 s with
  | some why => .refused why
  | none => .next { r.2 with phase := .run { ir := .op r.1, t := 2, q := Latches.empty }, boundary := false }

/-- A cycle of a sequencer that is locked up (R272): a read at `0xFFFF`, then twice at `0xFFFE`, then `0xFFFF` for
ever; `T` stops at 6. Only the access of this cycle is kept in the trace (log entry 10). -/
def stuckCycle (sq : Seq) (s : State) : Out :=
  let a := if sq.t = 4 ∨ sq.t = 5 then 0xFFFE#16 else 0xFFFF#16
  .next { (busRead a s.beginSequence).2 with phase := .run { sq with t := min (sq.t + 1) 6 }, boundary := false }

/-- The cycles left of a sequence in progress; a state whose `phase` has been taken apart into them runs them as it
would from a boundary. -/
def Seq.rest (sq : Seq) : List Cycle := cyclesFrom sq.ir sq.t

/-- One cycle of a sequence. -/
def runCycle (sq : Seq) (s : State) : Out :=
  match sq.rest with
  | c :: _ => close sq.ir (sq.t + 1) (c sq.q { s with phase := .idle })
  | [] => stuckCycle sq s

/-- The clock step from an idle boundary: the first cycle of a request's sequence, or the opcode fetch. -/
def firstCycle (s : State) : Out :=
  match s.request with
  | some k => runCycle { ir := k, t := 1, q := Latches.empty } s
  | none => opcodeCycle s

/-- `clock_step()` (R112). In `fatal` there is no step and the boundary signal is 0 (R48, D29). -/
def clockStep (s : State) : Out :=
  match s.phase with
  | .fatal => .next { s with boundary := false }
  | .run sq => settle (runCycle sq s)
  | .idle => settle (firstCycle s.beginSequence)

/-- Run a sequence in progress to its boundary; one that is locked up makes one more cycle (R272). -/
def runRest (sq : Seq) (s : State) : Out :=
  match sq.rest with
  | [] => stuckCycle sq s
  | cs => close sq.ir (sq.t + cs.length) (runCycles cs sq.q { s with phase := .idle })

/-- `n` clock steps, stopping at the first fault or refusal. -/
def clockSteps : Nat → State → Out
  | 0, s => .next s
  | n + 1, s =>
    match clockStep s with
    | .next s' => clockSteps n s'
    | .fault f => .fault f
    | .refused r => .refused r

/-! ## The driving loop -/

/-- A `push` that the chip makes on its own account in one of its cycles, which is outside the block (R307, R312). -/
structure PushRequest where
  dest  : Nat
  value : Byte
  delay : Nat
  deriving DecidableEq, Repr

/-- `dq.push(dest, value, delay)` from outside the CPU's bus (R13, R302). In `fatal` it has no effect (R363). -/
def pushQueue (p : PushRequest) (s : State) : Except Fault State :=
  if s.phase = .fatal then .ok s
  else
    match s.dq.push p.dest p.value p.delay with
    | .ok q => .ok { s with dq := q }
    | .error f => .error f

/-- `dq.execute(handler)` (R13, R306): the handler's calls and the state. In `fatal` it has no effect (R363). -/
def executeQueue (s : State) : List (Nat × Byte) × State :=
  if s.phase = .fatal then ([], s) else (s.dq.execute.1, { s with dq := s.dq.execute.2 })

/-- The pushes of one chip cycle, in order (R302). -/
def chipPushes : List PushRequest → State → Except Fault State
  | [], s => .ok s
  | p :: ps, s =>
    match pushQueue p s with
    | .ok s' => chipPushes ps s'
    | .error f => .error f

/-- What one tick does, in order, under a `DRIVER_ORDER` and a `CHIP_RATIO` (R369, R78). -/
def DriverOrder.agents (o : DriverOrder) (chipRatio : Nat) : List Agent :=
  o.before ++ (List.replicate chipRatio o.each).flatten ++ o.after

/-- The agents' steps, one after another: the handler's calls in order, and the state. `chip k` is what the chip pushes
in its `k`-th step of the tick. -/
def runAgents (chip : Nat → List PushRequest) :
    List Agent → Nat → State → Host.Outcome (List (Nat × Byte) × State) Fault Refusal
  | [], _, s => .next ([], s)
  | .cpu :: as, k, s =>
    match clockStep s with
    | .next t => runAgents chip as k t
    | .fault f => .fault f
    | .refused r => .refused r
  | .queue :: as, k, s =>
    match runAgents chip as k (executeQueue s).2 with
    | .next x => .next ((executeQueue s).1 ++ x.1, x.2)
    | .fault f => .fault f
    | .refused r => .refused r
  | .chip :: as, k, s =>
    match chipPushes (chip k) s with
    | .ok t => runAgents chip as (k + 1) t
    | .error f => .fault f

/-- `tick()` (R369), in the order that `DRIVER_ORDER` gives. In `fatal` no agent steps (R48). The boundary signal of the
CPU's clock step is in the state; the handler's calls are answered with it. -/
def tick (chip : Nat → List PushRequest) (s : State) : Host.Outcome (List (Nat × Byte) × State) Fault Refusal :=
  if s.phase = .fatal then .next ([], { s with boundary := false })
  else runAgents chip (s.platform.driverOrder.agents s.platform.chipRatio) 0 s

end Sys2Proof.Machine
end

