-- ==== Sys2Proof/Machine/Boundary.lean ====
section
/-! DEFINITION. What a step does at an instruction boundary: recognise a request (R352), or fetch an instruction's bytes
and run its meaning; and the placing of an instruction where it will be fetched. -/

namespace Sys2Proof.Machine

/-- How many operand bytes are fetched before the meaning runs: all of them (R90), but for `JSR`, whose high byte is
fetched in its last cycle (R231). -/
def fetchedOperands (op : Byte) : Nat := if op = 0x20#8 then 1 else opLength op - 1

/-- Fetch an instruction's bytes at `PC`, in cycle order (R115, R91): the bytes, and the state with `PC` past those
fetched. The high byte of `JSR` is only looked at here, without an access (R231): DEDUCED, safe (log entry 14). -/
def fetchInstr (s : State) : List Byte × State :=
  let op := fetchByte s
  match fetchedOperands op.1 with
  | 0 => ([op.1], op.2)
  | 1 =>
    let lo := fetchByte op.2
    if op.1 = 0x20#8 then ([op.1, lo.1, peek lo.2.PC lo.2], lo.2) else ([op.1, lo.1], lo.2)
  | _ =>
    let lo := fetchByte op.2
    let hi := fetchByte lo.2
    ([op.1, lo.1, hi.1], hi.2)

/-- Decode bytes and run the meaning of the instruction at their front. -/
def runBytes (bytes : List Byte) (s : State) : Out :=
  match decode bytes with
  | .ok (i, _) => exec i s
  | .error _ => .refused .undecodable

/-- A whole step from an instruction boundary (R112, R352): the sequence of the request recognised there, or the next
instruction. -/
def stepAtBoundary (s : State) : Out :=
  match s.request with
  | some k => runRest { ir := k, t := 1, q := Latches.empty } s
  | none => runBytes (fetchInstr s).1 (fetchInstr s).2

/-- Put a byte where the CPU will read it at an address: into RAM, the address being made RAM if another device
answers it. -/
def placeByte (a : Addr) (v : Byte) (s : State) : State :=
  let s := match s.ramCell a with
    | some _ => s
    | none =>
      let r : Region := { mask := 0xFFFF#16, value := s.busAddr a, dev := .ram 0#16 0xFFFF#16 }
      { s with platform := { s.platform with regions := r :: s.platform.regions } }
  poke a v s

/-- Put bytes at successive addresses. -/
def placeBytes : Addr → List Byte → State → State
  | _, [], s => s
  | a, v :: vs, s => placeBytes (a + 1) vs (placeByte a v s)

/-- Make the next step an opcode fetch: an idle boundary with no request. -/
def readyToFetch (s : State) : State :=
  { s with phase := .idle, resetPending := false, nmiPending := false, irqLine := s.irqLine && s.P.I, halt := false }

end Sys2Proof.Machine
end

