-- ==== Sys2Proof/Machine/Step.lean ====
section
/-! DEFINITION. One step of the machine: the CPU runs to its next instruction boundary, as so many clock steps would
take it (R112, R134). -/

namespace Sys2Proof.Machine

/-- A step: a whole instruction, a whole interrupt or reset sequence, or the rest of a sequence in progress. -/
def step (s : State) : Host.Outcome State Fault Refusal :=
  match s.phase with
  | .fatal => .next { s with boundary := false }
  | .run sq => settle (runRest sq s)
  | .idle => settle (stepAtBoundary s.beginSequence)

/-- The state with an instruction's bytes at `PC`, so that the next step fetches and runs it (log entry 5). -/
def State.withFetchWord (s : State) (nbits w : Nat) : State :=
  placeBytes s.PC (tableWordBytes nbits w) (readyToFetch s)

end Sys2Proof.Machine
end

