-- ==== Sys2Proof/Machine/Inputs.lean ====
section
/-! DEFINITION. What the outside world can do to the block between two steps (R13, R351, R371): the interrupt inputs,
`reset()`, the inspection of registers, loading a cartridge, registering the observer, and the mark a fatal halt leaves.
`peek` and `poke` are in Ops.lean, `push` and `execute` in Clock.lean. -/

namespace Sys2Proof.Machine

/-- `set_irq(level)` (R37, R351). -/
def setIrq (level : Bool) (s : State) : State := { s with irqLine := level }

/-- `nmi()` (R38, R351): one falling edge. -/
def nmiEdge (s : State) : State := { s with nmiPending := true }

/-- `reset()` (R39, R391): at once, the sequence in progress abandoned; `fatal` is not left (R48). -/
def resetInput (s : State) : State :=
  { s with
    resetPending := true
    nmiPending := false
    phase :=
      match s.phase with
      | .idle => .idle
      | .run _ => .idle
      | .fatal => .fatal }

/-- What register inspection shows (R371). -/
structure Inspection where
  A : Byte
  X : Byte
  Y : Byte
  S : Byte
  PC : Addr
  P : Byte
  deriving DecidableEq, Repr

/-- Register inspection (R371): the status byte is `pack(1)` (R27). -/
def inspect (s : State) : Inspection := { A := s.A, X := s.X, Y := s.Y, S := s.S, PC := s.PC, P := pack true s.P }

/-- `load(image, scheme?)` (R321) into the state: a cartridge with no observer yet, or `none` for `DecodeFailure`. -/
def loadCartridge (image : List Byte) (scheme : Option Scheme) (s : State) : Option State :=
  (Cartridge.load s.platform image scheme s.draws).map fun c =>
    { s with cart := some c, observer := false, draws := s.draws + 1 }

/-- Register the trap observer (R47). -/
def registerObserver (s : State) : State := { s with observer := true }

/-- The mark of a fatal halt (R48, R363) on the state in which it happened: `phase` is `fatal`. The registers and
memory of a halted block are unspecified (U12), so nothing is to be read from them: DEDUCED, log entry 13. -/
def haltMark (s : State) : State := { s with phase := .fatal, boundary := false }

/-- The state a host holds after a step that may have halted the block (R363). -/
def afterStep (s : State) : Out → State
  | .next s' => s'
  | .fault _ => haltMark s
  | .refused _ => s

end Sys2Proof.Machine
end

