-- ==== Sys2Proof/Machine/Reading.lean ====
section
/-! DEFINITION. The instruction-level reading of the cycle tables (R6, R134): the address an addressing mode resolves,
the operand it delivers, what a run of pushes or pulls does, and the state at the boundary, each with its bus accesses
in the tables' order. The operand `x` is a mode's operand bytes, the low one alone in format `F2`. -/

namespace Sys2Proof.Machine

/-- The operand bytes of a mode, in the order of the instruction stream (R91, R68). -/
def Mode.bytes (md : Mode) (x : Addr) : List Byte :=
  if md.operandBytes = 1 then [loByte x] else [loByte x, hiByte x]

/-- The two-byte pointer of `(zp,X)` and `(zp),Y` at a page-0 address, wrapping in page 0 (R69 (b)), and the state after
its two reads. -/
def pointerAt (p : Byte) (s : State) : Addr × State :=
  let lo := busRead (zeroPage p) s
  let hi := busRead (zeroPage (p + 1)) lo.2
  (mkAddr hi.1 lo.1, hi.2)

/-- The base address to which a mode adds its index last, and the state after reading it; for the other modes the
effective address itself (R92, R120 to R128). -/
def Mode.base (md : Mode) (x : Addr) (s : State) : Addr × State :=
  match md with
  | .imm => (x, s)
  | .zp => (zeroPage (loByte x), s)
  | .zpx => (zeroPage (loByte x + s.X), (busRead (zeroPage (loByte x)) s).2)
  | .zpy => (zeroPage (loByte x + s.Y), (busRead (zeroPage (loByte x)) s).2)
  | .abs => (x, s)
  | .abx => (x, s)
  | .aby => (x, s)
  | .izx => pointerAt (loByte x + s.X) (busRead (zeroPage (loByte x)) s).2
  | .izy => pointerAt (loByte x) s

/-- The index a mode adds to its base, if its addition can cross a page (R121). -/
def Mode.index (md : Mode) (s : State) : Option Byte :=
  match md with
  | .imm => none
  | .zp => none
  | .zpx => none
  | .zpy => none
  | .abs => none
  | .abx => some s.X
  | .aby => some s.Y
  | .izx => none
  | .izy => some s.Y

/-- The effective address (R92), and the state after the cycles that resolve it in the write and rmw classes, which
always spend the correction cycle (R132). -/
def Mode.address (md : Mode) (x : Addr) (s : State) : Addr × State :=
  let b := md.base x s
  match md.index s with
  | none => b
  | some i => (indexed b.1 i, (busRead (uncorrected b.1 i) b.2).2)

/-- `cross` of a read (R121): whether the mode's last index addition crosses a page. -/
def Mode.cross (md : Mode) (x : Addr) (s : State) : Bool :=
  match md.index s with
  | none => false
  | some i => crosses (md.base x s).1 i

/-- The operand of the read class (R131), and the state after the cycles that deliver it: the byte after the opcode, or
the byte at the effective address, the read at the uncorrected address coming first when a page is crossed. -/
def Mode.operand (md : Mode) (x : Addr) (s : State) : Byte × State :=
  let b := md.base x s
  match md.index s with
  | none => if md = .imm then (loByte x, s) else busRead b.1 b.2
  | some i =>
    bif crosses b.1 i then busRead (indexed b.1 i) (busRead (uncorrected b.1 i) b.2).2
    else busRead (indexed b.1 i) b.2

/-- The state at an instruction boundary (R112). -/
def atBoundary (s : State) : State := { s with phase := .idle, boundary := true }

/-- The end of a sequence that writes: the boundary, or the fatal halt that a write of it brings (R363, R366). -/
def endWrite (r : Except Fault State) : Out :=
  match r with
  | .ok t => .next (atBoundary t)
  | .error f => .fault f

/-- Pushes, in order (R23). -/
def pushBytes : List Byte → State → Except Fault State
  | [], s => .ok s
  | v :: vs, s =>
    match busWrite (stackAddr s.S) v s with
    | .ok s' => pushBytes vs { s' with S := s'.S - 1 }
    | .error f => .error f

/-- One pull (R23). -/
def pullByte (s : State) : Byte × State := busRead (stackAddr (s.S + 1)) { s with S := s.S + 1 }

/-- The state after a dummy read (R150). -/
def dummyRead (a : Addr) (s : State) : State := (busRead a s).2

/-- Load `PC` from a vector with `I` set (R252, R354, R390). -/
def throughVector (vec : Addr) (s : State) : State :=
  let lo := busRead vec s
  let s₁ := { lo.2 with P := { lo.2.P with I := true } }
  let hi := busRead (vec + 1) s₁
  { hi.2 with PC := mkAddr hi.1 lo.1 }

end Sys2Proof.Machine
end

