-- ==== Sys2Proof/Safety.lean ====
section
/-! DEFINITION. What counts as a safe run, in the terms the statements use: the invariant of the state, and the
condition under which a bus write cannot halt the block. -/

namespace Sys2Proof.Machine

/-- The memory, the queue, the cartridge and the table of device states are as their operations leave them (R64, R43,
R44 to R46), and no halt is under way. -/
abbrev State.Inv (s : State) : Prop :=
  s.mem.wf = true ∧ s.dq.Inv ∧ s.cart.all Cartridge.wf = true ∧ tableRising s.devices = true ∧ s.halt = false

/-- A device of the block's own, or none: no read of it raises a trap (R334, R361). -/
def Device.own (d : Device) : Bool :=
  match d with
  | .ram _ _ => true
  | .cart => true
  | .chip => true
  | .absent => true
  | .other _ => false

/-- No read can halt the block: an observer receives every trap, or no device outside the block is on the bus. -/
def State.quiet (s : State) : Bool := !s.halt && (s.observer || s.platform.regions.all (fun r => r.dev.own))

/-- A cartridge takes a write at an address without a trap: a hotspot (R331). -/
def Cartridge.switchesAt (a : Addr) (c : Cartridge) : Bool :=
  match c.scheme with
  | .fixedRom _ _ => false
  | .hotspot w _ hot _ _ _ => (hotspotAt hot (a.toNat % w)).isSome
  | .multiLoad _ => false

/-- No cartridge traps a write at an address (R325, R331): there is none, or it has a hotspot there. -/
def cartTakes (c : Option Cartridge) (a : Addr) : Bool :=
  match c with
  | some c => c.switchesAt a
  | none => true

/-- A write at an address cannot halt the block (R325, R362, R363): it reaches RAM, a chip register that is not
delayed, an address that no device answers, a hotspot, or a cartridge or a device outside the block whose traps an
observer receives. -/
def State.accepts (s : State) (a : Addr) : Bool :=
  match s.route a with
  | .ram _ _ => true
  | .cart => s.observer || cartTakes s.cart (s.busAddr a)
  | .chip => (s.delayedAt a).isNone
  | .absent => true
  | .other _ => s.observer

end Sys2Proof.Machine
end

