-- ==== Sys2Proof/Certificates/Slice0/Obligations.lean ====
section
/-! DEFINITION. The statements for the provers. A form of an instruction is listed with its mode, its opcode byte and its
cycle count (R92, R96, R136); what it does is said for every form in its list, every operand and every state, in the
terms of Reading.lean. Effects are written out field by field, so each equation of states is a frame as well. -/

namespace Sys2Proof.Spec

open Sys2Proof.Machine

/-- A form: addressing mode, opcode byte, cycles without a page crossing of the read class, and the instruction as a
function of its operand, of which a one-byte operand is the low byte. -/
structure Entry where
  mode   : Mode
  op     : Byte
  cycles : Nat
  instr  : Addr → Instr

/-- The read class (R131): the encoding, the state at the boundary, and the cycle count (R136), of which the fetches of
the opcode and the operand come before `exec`. -/
def Reads (e : Entry) (eff : Byte → State → State) (x : Addr) (s : State) : Prop :=
  encode (e.instr x) = e.op :: e.mode.bytes x ∧
  exec (e.instr x) s = .next (atBoundary (eff (e.mode.operand x s).1 (e.mode.operand x s).2)) ∧
  (eff (e.mode.operand x s).1 (e.mode.operand x s).2).trace.length + e.mode.operandBytes + 1 =
    s.trace.length + e.cycles + (e.mode.cross x s).toNat

/-- The write class (R132): the encoding, the write of a register at the effective address, and, where the address
accepts a write, the boundary it reaches in the table's number of cycles, with every register and flag as before. -/
def Writes (e : Entry) (reg : State → Byte) (x : Addr) (s : State) : Prop :=
  encode (e.instr x) = e.op :: e.mode.bytes x ∧
  exec (e.instr x) s = endWrite (busWrite (e.mode.address x s).1 (reg s) (e.mode.address x s).2) ∧
  (s.accepts (e.mode.address x s).1 = true →
    ∃ t, busWrite (e.mode.address x s).1 (reg s) (e.mode.address x s).2 = .ok t ∧
      exec (e.instr x) s = .next (atBoundary t) ∧
      t.trace.length + e.mode.operandBytes + 1 = s.trace.length + e.cycles ∧
      t.A = s.A ∧ t.X = s.X ∧ t.Y = s.Y ∧ t.S = s.S ∧ t.PC = s.PC ∧ t.P = s.P)

/-- The read-modify-write class (R133): the encoding, the read of `m`, the write of `m` and the write of the new value
at the effective address, the effect on registers and flags, and, where the address accepts a write, the boundary it
reaches in the table's number of cycles. -/
def Modifies (e : Entry) (new : Byte → Flags → Byte) (eff : Byte → State → State) (x : Addr) (s : State) : Prop :=
  encode (e.instr x) = e.op :: e.mode.bytes x ∧
  (let a := e.mode.address x s
   let r := busRead a.1 a.2
   exec (e.instr x) s =
     endWrite ((busWrite a.1 r.1 r.2).bind fun t => (busWrite a.1 (new r.1 s.P) t).map (eff r.1)) ∧
   (s.accepts a.1 = true → ∃ t u, busWrite a.1 r.1 r.2 = .ok t ∧ busWrite a.1 (new r.1 s.P) t = .ok u ∧
     exec (e.instr x) s = .next (atBoundary (eff r.1 u)) ∧
     (eff r.1 u).trace.length + e.mode.operandBytes + 1 = s.trace.length + e.cycles))

/-- The implied class (R117): the encoding, the dummy read of `PC` that is the second cycle, and the operation. -/
def Implied (i : Instr) (op : Byte) (eff : State → State) (s : State) : Prop :=
  encode i = [op] ∧ exec i s = .next (atBoundary (eff (dummyRead s.PC s))) ∧
  ∃ v, (eff (dummyRead s.PC s)).trace = s.trace ++ [Access.rd s.PC v]

/-- A flag as the 8-bit number 0 or 1 (R15). -/
def bit (b : Bool) : Byte := if b then 1#8 else 0#8

/-- The opcode byte of an instruction. -/
def opcode (i : Instr) : Byte := (encode i).headD 0#8

/-- The byte of RAM that an address of the CPU reaches, if it reaches RAM and something has loaded or written it. -/
def ramByte (s : State) (a : Addr) : Option Byte := (s.ramCell a).bind (Memory.read s.mem)

/-- `LDA` (R160). -/
def ldaForms : List Entry :=
  [ ⟨.izx, 0xA1#8, 6, fun x => .ldaIzx (loByte x)⟩, ⟨.zp, 0xA5#8, 3, fun x => .ldaZp (loByte x)⟩,
    ⟨.imm, 0xA9#8, 2, fun x => .ldaImm (loByte x)⟩, ⟨.abs, 0xAD#8, 4, .ldaAbs⟩,
    ⟨.izy, 0xB1#8, 5, fun x => .ldaIzy (loByte x)⟩, ⟨.zpx, 0xB5#8, 4, fun x => .ldaZpx (loByte x)⟩,
    ⟨.aby, 0xB9#8, 4, .ldaAby⟩, ⟨.abx, 0xBD#8, 4, .ldaAbx⟩ ]

/-- `LDX` (R161). -/
def ldxForms : List Entry :=
  [ ⟨.imm, 0xA2#8, 2, fun x => .ldxImm (loByte x)⟩, ⟨.zp, 0xA6#8, 3, fun x => .ldxZp (loByte x)⟩,
    ⟨.abs, 0xAE#8, 4, .ldxAbs⟩, ⟨.zpy, 0xB6#8, 4, fun x => .ldxZpy (loByte x)⟩,
    ⟨.aby, 0xBE#8, 4, .ldxAby⟩ ]

/-- `LDY` (R162). -/
def ldyForms : List Entry :=
  [ ⟨.imm, 0xA0#8, 2, fun x => .ldyImm (loByte x)⟩, ⟨.zp, 0xA4#8, 3, fun x => .ldyZp (loByte x)⟩,
    ⟨.abs, 0xAC#8, 4, .ldyAbs⟩, ⟨.zpx, 0xB4#8, 4, fun x => .ldyZpx (loByte x)⟩,
    ⟨.abx, 0xBC#8, 4, .ldyAbx⟩ ]

/-- `STA` (R163). -/
def staForms : List Entry :=
  [ ⟨.izx, 0x81#8, 6, fun x => .staIzx (loByte x)⟩, ⟨.zp, 0x85#8, 3, fun x => .staZp (loByte x)⟩,
    ⟨.abs, 0x8D#8, 4, .staAbs⟩, ⟨.izy, 0x91#8, 6, fun x => .staIzy (loByte x)⟩,
    ⟨.zpx, 0x95#8, 4, fun x => .staZpx (loByte x)⟩, ⟨.aby, 0x99#8, 5, .staAby⟩,
    ⟨.abx, 0x9D#8, 5, .staAbx⟩ ]

/-- `STX` (R164). -/
def stxForms : List Entry :=
  [ ⟨.zp, 0x86#8, 3, fun x => .stxZp (loByte x)⟩, ⟨.abs, 0x8E#8, 4, .stxAbs⟩,
    ⟨.zpy, 0x96#8, 4, fun x => .stxZpy (loByte x)⟩ ]

/-- `STY` (R165). -/
def styForms : List Entry :=
  [ ⟨.zp, 0x84#8, 3, fun x => .styZp (loByte x)⟩, ⟨.abs, 0x8C#8, 4, .styAbs⟩,
    ⟨.zpx, 0x94#8, 4, fun x => .styZpx (loByte x)⟩ ]

/-- `ORA` (R186). -/
def oraForms : List Entry :=
  [ ⟨.izx, 0x01#8, 6, fun x => .oraIzx (loByte x)⟩, ⟨.zp, 0x05#8, 3, fun x => .oraZp (loByte x)⟩,
    ⟨.imm, 0x09#8, 2, fun x => .oraImm (loByte x)⟩, ⟨.abs, 0x0D#8, 4, .oraAbs⟩,
    ⟨.izy, 0x11#8, 5, fun x => .oraIzy (loByte x)⟩, ⟨.zpx, 0x15#8, 4, fun x => .oraZpx (loByte x)⟩,
    ⟨.aby, 0x19#8, 4, .oraAby⟩, ⟨.abx, 0x1D#8, 4, .oraAbx⟩ ]

/-- `AND` (R187). -/
def andForms : List Entry :=
  [ ⟨.izx, 0x21#8, 6, fun x => .andIzx (loByte x)⟩, ⟨.zp, 0x25#8, 3, fun x => .andZp (loByte x)⟩,
    ⟨.imm, 0x29#8, 2, fun x => .andImm (loByte x)⟩, ⟨.abs, 0x2D#8, 4, .andAbs⟩,
    ⟨.izy, 0x31#8, 5, fun x => .andIzy (loByte x)⟩, ⟨.zpx, 0x35#8, 4, fun x => .andZpx (loByte x)⟩,
    ⟨.aby, 0x39#8, 4, .andAby⟩, ⟨.abx, 0x3D#8, 4, .andAbx⟩ ]

/-- `EOR` (R188). -/
def eorForms : List Entry :=
  [ ⟨.izx, 0x41#8, 6, fun x => .eorIzx (loByte x)⟩, ⟨.zp, 0x45#8, 3, fun x => .eorZp (loByte x)⟩,
    ⟨.imm, 0x49#8, 2, fun x => .eorImm (loByte x)⟩, ⟨.abs, 0x4D#8, 4, .eorAbs⟩,
    ⟨.izy, 0x51#8, 5, fun x => .eorIzy (loByte x)⟩, ⟨.zpx, 0x55#8, 4, fun x => .eorZpx (loByte x)⟩,
    ⟨.aby, 0x59#8, 4, .eorAby⟩, ⟨.abx, 0x5D#8, 4, .eorAbx⟩ ]

/-- `BIT` (R189). -/
def bitForms : List Entry :=
  [ ⟨.zp, 0x24#8, 3, fun x => .bitZp (loByte x)⟩, ⟨.abs, 0x2C#8, 4, .bitAbs⟩ ]

/-- `ADC` (R190). -/
def adcForms : List Entry :=
  [ ⟨.izx, 0x61#8, 6, fun x => .adcIzx (loByte x)⟩, ⟨.zp, 0x65#8, 3, fun x => .adcZp (loByte x)⟩,
    ⟨.imm, 0x69#8, 2, fun x => .adcImm (loByte x)⟩, ⟨.abs, 0x6D#8, 4, .adcAbs⟩,
    ⟨.izy, 0x71#8, 5, fun x => .adcIzy (loByte x)⟩, ⟨.zpx, 0x75#8, 4, fun x => .adcZpx (loByte x)⟩,
    ⟨.aby, 0x79#8, 4, .adcAby⟩, ⟨.abx, 0x7D#8, 4, .adcAbx⟩ ]

/-- `SBC` (R191). -/
def sbcForms : List Entry :=
  [ ⟨.izx, 0xE1#8, 6, fun x => .sbcIzx (loByte x)⟩, ⟨.zp, 0xE5#8, 3, fun x => .sbcZp (loByte x)⟩,
    ⟨.imm, 0xE9#8, 2, fun x => .sbcImm (loByte x)⟩, ⟨.abs, 0xED#8, 4, .sbcAbs⟩,
    ⟨.izy, 0xF1#8, 5, fun x => .sbcIzy (loByte x)⟩, ⟨.zpx, 0xF5#8, 4, fun x => .sbcZpx (loByte x)⟩,
    ⟨.aby, 0xF9#8, 4, .sbcAby⟩, ⟨.abx, 0xFD#8, 4, .sbcAbx⟩ ]

/-- `CMP` (R192). -/
def cmpForms : List Entry :=
  [ ⟨.izx, 0xC1#8, 6, fun x => .cmpIzx (loByte x)⟩, ⟨.zp, 0xC5#8, 3, fun x => .cmpZp (loByte x)⟩,
    ⟨.imm, 0xC9#8, 2, fun x => .cmpImm (loByte x)⟩, ⟨.abs, 0xCD#8, 4, .cmpAbs⟩,
    ⟨.izy, 0xD1#8, 5, fun x => .cmpIzy (loByte x)⟩, ⟨.zpx, 0xD5#8, 4, fun x => .cmpZpx (loByte x)⟩,
    ⟨.aby, 0xD9#8, 4, .cmpAby⟩, ⟨.abx, 0xDD#8, 4, .cmpAbx⟩ ]

/-- `CPX` (R193). -/
def cpxForms : List Entry :=
  [ ⟨.imm, 0xE0#8, 2, fun x => .cpxImm (loByte x)⟩, ⟨.zp, 0xE4#8, 3, fun x => .cpxZp (loByte x)⟩,
    ⟨.abs, 0xEC#8, 4, .cpxAbs⟩ ]

/-- `CPY` (R194). -/
def cpyForms : List Entry :=
  [ ⟨.imm, 0xC0#8, 2, fun x => .cpyImm (loByte x)⟩, ⟨.zp, 0xC4#8, 3, fun x => .cpyZp (loByte x)⟩,
    ⟨.abs, 0xCC#8, 4, .cpyAbs⟩ ]

/-- `INC` (R195). -/
def incForms : List Entry :=
  [ ⟨.zp, 0xE6#8, 5, fun x => .incZp (loByte x)⟩, ⟨.abs, 0xEE#8, 6, .incAbs⟩,
    ⟨.zpx, 0xF6#8, 6, fun x => .incZpx (loByte x)⟩, ⟨.abx, 0xFE#8, 7, .incAbx⟩ ]

/-- `DEC` (R196). -/
def decForms : List Entry :=
  [ ⟨.zp, 0xC6#8, 5, fun x => .decZp (loByte x)⟩, ⟨.abs, 0xCE#8, 6, .decAbs⟩,
    ⟨.zpx, 0xD6#8, 6, fun x => .decZpx (loByte x)⟩, ⟨.abx, 0xDE#8, 7, .decAbx⟩ ]

/-- `ASL` on memory (R201). -/
def aslForms : List Entry :=
  [ ⟨.zp, 0x06#8, 5, fun x => .aslZp (loByte x)⟩, ⟨.abs, 0x0E#8, 6, .aslAbs⟩,
    ⟨.zpx, 0x16#8, 6, fun x => .aslZpx (loByte x)⟩, ⟨.abx, 0x1E#8, 7, .aslAbx⟩ ]

/-- `LSR` on memory (R202). -/
def lsrForms : List Entry :=
  [ ⟨.zp, 0x46#8, 5, fun x => .lsrZp (loByte x)⟩, ⟨.abs, 0x4E#8, 6, .lsrAbs⟩,
    ⟨.zpx, 0x56#8, 6, fun x => .lsrZpx (loByte x)⟩, ⟨.abx, 0x5E#8, 7, .lsrAbx⟩ ]

/-- `ROL` on memory (R203). -/
def rolForms : List Entry :=
  [ ⟨.zp, 0x26#8, 5, fun x => .rolZp (loByte x)⟩, ⟨.abs, 0x2E#8, 6, .rolAbs⟩,
    ⟨.zpx, 0x36#8, 6, fun x => .rolZpx (loByte x)⟩, ⟨.abx, 0x3E#8, 7, .rolAbx⟩ ]

/-- `ROR` on memory (R204). -/
def rorForms : List Entry :=
  [ ⟨.zp, 0x66#8, 5, fun x => .rorZp (loByte x)⟩, ⟨.abs, 0x6E#8, 6, .rorAbs⟩,
    ⟨.zpx, 0x76#8, 6, fun x => .rorZpx (loByte x)⟩, ⟨.abx, 0x7E#8, 7, .rorAbx⟩ ]

/-- The undocumented `NOP`s that have an operand (R271). -/
def nopForms : List Entry :=
  [ ⟨.zp, 0x04#8, 3, fun x => .nopZp04 (loByte x)⟩, ⟨.abs, 0x0C#8, 4, .nopAbs0C⟩,
    ⟨.zpx, 0x14#8, 4, fun x => .nopZpx14 (loByte x)⟩, ⟨.abx, 0x1C#8, 4, .nopAbx1C⟩,
    ⟨.zpx, 0x34#8, 4, fun x => .nopZpx34 (loByte x)⟩, ⟨.abx, 0x3C#8, 4, .nopAbx3C⟩,
    ⟨.zp, 0x44#8, 3, fun x => .nopZp44 (loByte x)⟩, ⟨.zpx, 0x54#8, 4, fun x => .nopZpx54 (loByte x)⟩,
    ⟨.abx, 0x5C#8, 4, .nopAbx5C⟩, ⟨.zp, 0x64#8, 3, fun x => .nopZp64 (loByte x)⟩,
    ⟨.zpx, 0x74#8, 4, fun x => .nopZpx74 (loByte x)⟩, ⟨.abx, 0x7C#8, 4, .nopAbx7C⟩,
    ⟨.imm, 0x80#8, 2, fun x => .nopImm80 (loByte x)⟩, ⟨.imm, 0x82#8, 2, fun x => .nopImm82 (loByte x)⟩,
    ⟨.imm, 0x89#8, 2, fun x => .nopImm89 (loByte x)⟩, ⟨.imm, 0xC2#8, 2, fun x => .nopImmC2 (loByte x)⟩,
    ⟨.zpx, 0xD4#8, 4, fun x => .nopZpxD4 (loByte x)⟩, ⟨.abx, 0xDC#8, 4, .nopAbxDC⟩,
    ⟨.imm, 0xE2#8, 2, fun x => .nopImmE2 (loByte x)⟩, ⟨.zpx, 0xF4#8, 4, fun x => .nopZpxF4 (loByte x)⟩,
    ⟨.abx, 0xFC#8, 4, .nopAbxFC⟩ ]

/-- `SLO` (R273). -/
def sloForms : List Entry :=
  [ ⟨.izx, 0x03#8, 8, fun x => .sloIzx (loByte x)⟩, ⟨.zp, 0x07#8, 5, fun x => .sloZp (loByte x)⟩,
    ⟨.abs, 0x0F#8, 6, .sloAbs⟩, ⟨.izy, 0x13#8, 8, fun x => .sloIzy (loByte x)⟩,
    ⟨.zpx, 0x17#8, 6, fun x => .sloZpx (loByte x)⟩, ⟨.aby, 0x1B#8, 7, .sloAby⟩,
    ⟨.abx, 0x1F#8, 7, .sloAbx⟩ ]

/-- `RLA` (R274). -/
def rlaForms : List Entry :=
  [ ⟨.izx, 0x23#8, 8, fun x => .rlaIzx (loByte x)⟩, ⟨.zp, 0x27#8, 5, fun x => .rlaZp (loByte x)⟩,
    ⟨.abs, 0x2F#8, 6, .rlaAbs⟩, ⟨.izy, 0x33#8, 8, fun x => .rlaIzy (loByte x)⟩,
    ⟨.zpx, 0x37#8, 6, fun x => .rlaZpx (loByte x)⟩, ⟨.aby, 0x3B#8, 7, .rlaAby⟩,
    ⟨.abx, 0x3F#8, 7, .rlaAbx⟩ ]

/-- `SRE` (R275). -/
def sreForms : List Entry :=
  [ ⟨.izx, 0x43#8, 8, fun x => .sreIzx (loByte x)⟩, ⟨.zp, 0x47#8, 5, fun x => .sreZp (loByte x)⟩,
    ⟨.abs, 0x4F#8, 6, .sreAbs⟩, ⟨.izy, 0x53#8, 8, fun x => .sreIzy (loByte x)⟩,
    ⟨.zpx, 0x57#8, 6, fun x => .sreZpx (loByte x)⟩, ⟨.aby, 0x5B#8, 7, .sreAby⟩,
    ⟨.abx, 0x5F#8, 7, .sreAbx⟩ ]

/-- `RRA` (R276). -/
def rraForms : List Entry :=
  [ ⟨.izx, 0x63#8, 8, fun x => .rraIzx (loByte x)⟩, ⟨.zp, 0x67#8, 5, fun x => .rraZp (loByte x)⟩,
    ⟨.abs, 0x6F#8, 6, .rraAbs⟩, ⟨.izy, 0x73#8, 8, fun x => .rraIzy (loByte x)⟩,
    ⟨.zpx, 0x77#8, 6, fun x => .rraZpx (loByte x)⟩, ⟨.aby, 0x7B#8, 7, .rraAby⟩,
    ⟨.abx, 0x7F#8, 7, .rraAbx⟩ ]

/-- `SAX` (R277). -/
def saxForms : List Entry :=
  [ ⟨.izx, 0x83#8, 6, fun x => .saxIzx (loByte x)⟩, ⟨.zp, 0x87#8, 3, fun x => .saxZp (loByte x)⟩,
    ⟨.abs, 0x8F#8, 4, .saxAbs⟩, ⟨.zpy, 0x97#8, 4, fun x => .saxZpy (loByte x)⟩ ]

/-- `LAX` (R278). -/
def laxForms : List Entry :=
  [ ⟨.izx, 0xA3#8, 6, fun x => .laxIzx (loByte x)⟩, ⟨.zp, 0xA7#8, 3, fun x => .laxZp (loByte x)⟩,
    ⟨.abs, 0xAF#8, 4, .laxAbs⟩, ⟨.izy, 0xB3#8, 5, fun x => .laxIzy (loByte x)⟩,
    ⟨.zpy, 0xB7#8, 4, fun x => .laxZpy (loByte x)⟩, ⟨.aby, 0xBF#8, 4, .laxAby⟩ ]

/-- `DCP` (R279). -/
def dcpForms : List Entry :=
  [ ⟨.izx, 0xC3#8, 8, fun x => .dcpIzx (loByte x)⟩, ⟨.zp, 0xC7#8, 5, fun x => .dcpZp (loByte x)⟩,
    ⟨.abs, 0xCF#8, 6, .dcpAbs⟩, ⟨.izy, 0xD3#8, 8, fun x => .dcpIzy (loByte x)⟩,
    ⟨.zpx, 0xD7#8, 6, fun x => .dcpZpx (loByte x)⟩, ⟨.aby, 0xDB#8, 7, .dcpAby⟩,
    ⟨.abx, 0xDF#8, 7, .dcpAbx⟩ ]

/-- `ISC` (R280). -/
def iscForms : List Entry :=
  [ ⟨.izx, 0xE3#8, 8, fun x => .iscIzx (loByte x)⟩, ⟨.zp, 0xE7#8, 5, fun x => .iscZp (loByte x)⟩,
    ⟨.abs, 0xEF#8, 6, .iscAbs⟩, ⟨.izy, 0xF3#8, 8, fun x => .iscIzy (loByte x)⟩,
    ⟨.zpx, 0xF7#8, 6, fun x => .iscZpx (loByte x)⟩, ⟨.aby, 0xFB#8, 7, .iscAby⟩,
    ⟨.abx, 0xFF#8, 7, .iscAbx⟩ ]

/-- `ANC` (R281). -/
def ancForms : List Entry :=
  [ ⟨.imm, 0x0B#8, 2, fun x => .ancImm0B (loByte x)⟩, ⟨.imm, 0x2B#8, 2, fun x => .ancImm2B (loByte x)⟩ ]

/-- The eight branches (R221 to R228): opcode byte, condition, and the instruction of a displacement. -/
def branchForms : List (Byte × (Flags → Bool) × (Byte → Instr)) :=
  [ (0x10#8, fun p => !p.N, .bpl),
    (0x30#8, fun p => p.N, .bmi),
    (0x50#8, fun p => !p.V, .bvc),
    (0x70#8, fun p => p.V, .bvs),
    (0x90#8, fun p => !p.C, .bcc),
    (0xB0#8, fun p => p.C, .bcs),
    (0xD0#8, fun p => !p.Z, .bne),
    (0xF0#8, fun p => p.Z, .beq) ]

/-- `JAM` (R272). -/
def jamForms : List (Byte × Instr) :=
  [ (0x02#8, .jam02), (0x12#8, .jam12), (0x22#8, .jam22), (0x32#8, .jam32),
    (0x42#8, .jam42), (0x52#8, .jam52), (0x62#8, .jam62), (0x72#8, .jam72),
    (0x92#8, .jam92), (0xB2#8, .jamB2), (0xD2#8, .jamD2), (0xF2#8, .jamF2) ]

/-- The undocumented one-byte `NOP`s (R271). -/
def nopImpForms : List (Byte × Instr) :=
  [ (0x1A#8, .nopImp1A), (0x3A#8, .nopImp3A), (0x5A#8, .nopImp5A),
    (0x7A#8, .nopImp7A), (0xDA#8, .nopImpDA), (0xFA#8, .nopImpFA) ]

/-- The 105 undocumented opcode bytes (R97). -/
def undocumentedOps : List Byte :=
  [ 0x02#8, 0x03#8, 0x04#8, 0x07#8, 0x0B#8, 0x0C#8, 0x0F#8, 0x12#8, 0x13#8, 0x14#8, 0x17#8, 0x1A#8,
    0x1B#8, 0x1C#8, 0x1F#8, 0x22#8, 0x23#8, 0x27#8, 0x2B#8, 0x2F#8, 0x32#8, 0x33#8, 0x34#8, 0x37#8,
    0x3A#8, 0x3B#8, 0x3C#8, 0x3F#8, 0x42#8, 0x43#8, 0x44#8, 0x47#8, 0x4B#8, 0x4F#8, 0x52#8, 0x53#8,
    0x54#8, 0x57#8, 0x5A#8, 0x5B#8, 0x5C#8, 0x5F#8, 0x62#8, 0x63#8, 0x64#8, 0x67#8, 0x6B#8, 0x6F#8,
    0x72#8, 0x73#8, 0x74#8, 0x77#8, 0x7A#8, 0x7B#8, 0x7C#8, 0x7F#8, 0x80#8, 0x82#8, 0x83#8, 0x87#8,
    0x89#8, 0x8B#8, 0x8F#8, 0x92#8, 0x93#8, 0x97#8, 0x9B#8, 0x9C#8, 0x9E#8, 0x9F#8, 0xA3#8, 0xA7#8,
    0xAB#8, 0xAF#8, 0xB2#8, 0xB3#8, 0xB7#8, 0xBB#8, 0xBF#8, 0xC2#8, 0xC3#8, 0xC7#8, 0xCB#8, 0xCF#8,
    0xD2#8, 0xD3#8, 0xD4#8, 0xD7#8, 0xDA#8, 0xDB#8, 0xDC#8, 0xDF#8, 0xE2#8, 0xE3#8, 0xE7#8, 0xEB#8,
    0xEF#8, 0xF2#8, 0xF3#8, 0xF4#8, 0xF7#8, 0xFA#8, 0xFB#8, 0xFC#8, 0xFF#8 ]

/-- The unstable ones among them (R286 to R292). -/
def unstableOps : List Byte :=
  [0x8B#8, 0xAB#8, 0x93#8, 0x9F#8, 0x9E#8, 0x9C#8, 0x9B#8, 0xBB#8]

/-- The opcodes that may write `A` (R20, and the undocumented ones by R273 to R285). -/
def writesA : List Byte :=
  [ 0x01#8, 0x03#8, 0x05#8, 0x07#8, 0x09#8, 0x0A#8, 0x0B#8, 0x0D#8, 0x0F#8, 0x11#8, 0x13#8, 0x15#8,
    0x17#8, 0x19#8, 0x1B#8, 0x1D#8, 0x1F#8, 0x21#8, 0x23#8, 0x25#8, 0x27#8, 0x29#8, 0x2A#8, 0x2B#8,
    0x2D#8, 0x2F#8, 0x31#8, 0x33#8, 0x35#8, 0x37#8, 0x39#8, 0x3B#8, 0x3D#8, 0x3F#8, 0x41#8, 0x43#8,
    0x45#8, 0x47#8, 0x49#8, 0x4A#8, 0x4B#8, 0x4D#8, 0x4F#8, 0x51#8, 0x53#8, 0x55#8, 0x57#8, 0x59#8,
    0x5B#8, 0x5D#8, 0x5F#8, 0x61#8, 0x63#8, 0x65#8, 0x67#8, 0x68#8, 0x69#8, 0x6A#8, 0x6B#8, 0x6D#8,
    0x6F#8, 0x71#8, 0x73#8, 0x75#8, 0x77#8, 0x79#8, 0x7B#8, 0x7D#8, 0x7F#8, 0x8A#8, 0x98#8, 0xA1#8,
    0xA3#8, 0xA5#8, 0xA7#8, 0xA9#8, 0xAD#8, 0xAF#8, 0xB1#8, 0xB3#8, 0xB5#8, 0xB7#8, 0xB9#8, 0xBD#8,
    0xBF#8, 0xE1#8, 0xE3#8, 0xE5#8, 0xE7#8, 0xE9#8, 0xEB#8, 0xED#8, 0xEF#8, 0xF1#8, 0xF3#8, 0xF5#8,
    0xF7#8, 0xF9#8, 0xFB#8, 0xFD#8, 0xFF#8 ]

/-- The opcodes that may write `X` (R21). -/
def writesX : List Byte :=
  [ 0xA2#8, 0xA3#8, 0xA6#8, 0xA7#8, 0xAA#8, 0xAE#8, 0xAF#8, 0xB3#8, 0xB6#8, 0xB7#8, 0xBA#8, 0xBE#8,
    0xBF#8, 0xCA#8, 0xCB#8, 0xE8#8 ]

/-- The opcodes that may write `Y` (R22). -/
def writesY : List Byte :=
  [ 0x88#8, 0xA0#8, 0xA4#8, 0xA8#8, 0xAC#8, 0xB4#8, 0xBC#8, 0xC8#8 ]

/-- The opcodes that may write `S`: pushes, pulls and `TXS` (R23). -/
def writesS : List Byte :=
  [ 0x00#8, 0x08#8, 0x20#8, 0x28#8, 0x40#8, 0x48#8, 0x60#8, 0x68#8, 0x9A#8 ]

/-- The opcodes that write `PC` beyond the fetch of their own bytes (R24). -/
def writesPC : List Byte :=
  [ 0x00#8, 0x10#8, 0x20#8, 0x30#8, 0x40#8, 0x4C#8, 0x50#8, 0x60#8, 0x6C#8, 0x70#8, 0x90#8, 0xB0#8,
    0xD0#8, 0xF0#8 ]

/-- The opcodes that may write `N` and `Z` (R26). -/
def writesNZ : List Byte :=
  [ 0x01#8, 0x03#8, 0x05#8, 0x06#8, 0x07#8, 0x09#8, 0x0A#8, 0x0B#8, 0x0D#8, 0x0E#8, 0x0F#8, 0x11#8,
    0x13#8, 0x15#8, 0x16#8, 0x17#8, 0x19#8, 0x1B#8, 0x1D#8, 0x1E#8, 0x1F#8, 0x21#8, 0x23#8, 0x24#8,
    0x25#8, 0x26#8, 0x27#8, 0x28#8, 0x29#8, 0x2A#8, 0x2B#8, 0x2C#8, 0x2D#8, 0x2E#8, 0x2F#8, 0x31#8,
    0x33#8, 0x35#8, 0x36#8, 0x37#8, 0x39#8, 0x3B#8, 0x3D#8, 0x3E#8, 0x3F#8, 0x40#8, 0x41#8, 0x43#8,
    0x45#8, 0x46#8, 0x47#8, 0x49#8, 0x4A#8, 0x4B#8, 0x4D#8, 0x4E#8, 0x4F#8, 0x51#8, 0x53#8, 0x55#8,
    0x56#8, 0x57#8, 0x59#8, 0x5B#8, 0x5D#8, 0x5E#8, 0x5F#8, 0x61#8, 0x63#8, 0x65#8, 0x66#8, 0x67#8,
    0x68#8, 0x69#8, 0x6A#8, 0x6B#8, 0x6D#8, 0x6E#8, 0x6F#8, 0x71#8, 0x73#8, 0x75#8, 0x76#8, 0x77#8,
    0x79#8, 0x7B#8, 0x7D#8, 0x7E#8, 0x7F#8, 0x88#8, 0x8A#8, 0x98#8, 0xA0#8, 0xA1#8, 0xA2#8, 0xA3#8,
    0xA4#8, 0xA5#8, 0xA6#8, 0xA7#8, 0xA8#8, 0xA9#8, 0xAA#8, 0xAC#8, 0xAD#8, 0xAE#8, 0xAF#8, 0xB1#8,
    0xB3#8, 0xB4#8, 0xB5#8, 0xB6#8, 0xB7#8, 0xB9#8, 0xBA#8, 0xBC#8, 0xBD#8, 0xBE#8, 0xBF#8, 0xC0#8,
    0xC1#8, 0xC3#8, 0xC4#8, 0xC5#8, 0xC6#8, 0xC7#8, 0xC8#8, 0xC9#8, 0xCA#8, 0xCB#8, 0xCC#8, 0xCD#8,
    0xCE#8, 0xCF#8, 0xD1#8, 0xD3#8, 0xD5#8, 0xD6#8, 0xD7#8, 0xD9#8, 0xDB#8, 0xDD#8, 0xDE#8, 0xDF#8,
    0xE0#8, 0xE1#8, 0xE3#8, 0xE4#8, 0xE5#8, 0xE6#8, 0xE7#8, 0xE8#8, 0xE9#8, 0xEB#8, 0xEC#8, 0xED#8,
    0xEE#8, 0xEF#8, 0xF1#8, 0xF3#8, 0xF5#8, 0xF6#8, 0xF7#8, 0xF9#8, 0xFB#8, 0xFD#8, 0xFE#8, 0xFF#8 ]

/-- The opcodes that may write `V` (R26). -/
def writesV : List Byte :=
  [ 0x24#8, 0x28#8, 0x2C#8, 0x40#8, 0x61#8, 0x63#8, 0x65#8, 0x67#8, 0x69#8, 0x6B#8, 0x6D#8, 0x6F#8,
    0x71#8, 0x73#8, 0x75#8, 0x77#8, 0x79#8, 0x7B#8, 0x7D#8, 0x7F#8, 0xB8#8, 0xE1#8, 0xE3#8, 0xE5#8,
    0xE7#8, 0xE9#8, 0xEB#8, 0xED#8, 0xEF#8, 0xF1#8, 0xF3#8, 0xF5#8, 0xF7#8, 0xF9#8, 0xFB#8, 0xFD#8,
    0xFF#8 ]

/-- The opcodes that may write `D` (R26). -/
def writesD : List Byte :=
  [ 0x28#8, 0x40#8, 0xD8#8, 0xF8#8 ]

/-- The opcodes that may write `I` (R26). -/
def writesI : List Byte :=
  [ 0x00#8, 0x28#8, 0x40#8, 0x58#8, 0x78#8 ]

/-- The opcodes that may write `C` (R26). -/
def writesC : List Byte :=
  [ 0x03#8, 0x06#8, 0x07#8, 0x0A#8, 0x0B#8, 0x0E#8, 0x0F#8, 0x13#8, 0x16#8, 0x17#8, 0x18#8, 0x1B#8,
    0x1E#8, 0x1F#8, 0x23#8, 0x26#8, 0x27#8, 0x28#8, 0x2A#8, 0x2B#8, 0x2E#8, 0x2F#8, 0x33#8, 0x36#8,
    0x37#8, 0x38#8, 0x3B#8, 0x3E#8, 0x3F#8, 0x40#8, 0x43#8, 0x46#8, 0x47#8, 0x4A#8, 0x4B#8, 0x4E#8,
    0x4F#8, 0x53#8, 0x56#8, 0x57#8, 0x5B#8, 0x5E#8, 0x5F#8, 0x61#8, 0x63#8, 0x65#8, 0x66#8, 0x67#8,
    0x69#8, 0x6A#8, 0x6B#8, 0x6D#8, 0x6E#8, 0x6F#8, 0x71#8, 0x73#8, 0x75#8, 0x76#8, 0x77#8, 0x79#8,
    0x7B#8, 0x7D#8, 0x7E#8, 0x7F#8, 0xC0#8, 0xC1#8, 0xC3#8, 0xC4#8, 0xC5#8, 0xC7#8, 0xC9#8, 0xCB#8,
    0xCC#8, 0xCD#8, 0xCF#8, 0xD1#8, 0xD3#8, 0xD5#8, 0xD7#8, 0xD9#8, 0xDB#8, 0xDD#8, 0xDF#8, 0xE0#8,
    0xE1#8, 0xE3#8, 0xE4#8, 0xE5#8, 0xE7#8, 0xE9#8, 0xEB#8, 0xEC#8, 0xED#8, 0xEF#8, 0xF1#8, 0xF3#8,
    0xF5#8, 0xF7#8, 0xF9#8, 0xFB#8, 0xFD#8, 0xFF#8 ]

/-- The opcodes that make a bus write: the write and rmw classes (R132, R133) and the pushes (R231, R240, R241, R252). -/
def storesByte : List Byte :=
  [ 0x00#8, 0x03#8, 0x06#8, 0x07#8, 0x08#8, 0x0E#8, 0x0F#8, 0x13#8, 0x16#8, 0x17#8, 0x1B#8, 0x1E#8,
    0x1F#8, 0x20#8, 0x23#8, 0x26#8, 0x27#8, 0x2E#8, 0x2F#8, 0x33#8, 0x36#8, 0x37#8, 0x3B#8, 0x3E#8,
    0x3F#8, 0x43#8, 0x46#8, 0x47#8, 0x48#8, 0x4E#8, 0x4F#8, 0x53#8, 0x56#8, 0x57#8, 0x5B#8, 0x5E#8,
    0x5F#8, 0x63#8, 0x66#8, 0x67#8, 0x6E#8, 0x6F#8, 0x73#8, 0x76#8, 0x77#8, 0x7B#8, 0x7E#8, 0x7F#8,
    0x81#8, 0x83#8, 0x84#8, 0x85#8, 0x86#8, 0x87#8, 0x8C#8, 0x8D#8, 0x8E#8, 0x8F#8, 0x91#8, 0x94#8,
    0x95#8, 0x96#8, 0x97#8, 0x99#8, 0x9D#8, 0xC3#8, 0xC6#8, 0xC7#8, 0xCE#8, 0xCF#8, 0xD3#8, 0xD6#8,
    0xD7#8, 0xDB#8, 0xDE#8, 0xDF#8, 0xE3#8, 0xE6#8, 0xE7#8, 0xEE#8, 0xEF#8, 0xF3#8, 0xF6#8, 0xF7#8,
    0xFB#8, 0xFE#8, 0xFF#8 ]

/-- The accesses of the given addresses with the bytes they carried. -/
def readsAt (as : List Addr) (vs : List Byte) : List Access := List.zipWith Access.rd as vs

/-- What taking an interrupt leaves (R354, R252): after the reads `pre`, the pushes of `ret` and of `pack(b)`, `I` set, `S`
three lower, `PC` from the vector, the registers and the other flags as before, and no other cell of RAM written. -/
def Entered (b : Bool) (vec ret : Addr) (pre : List Addr) (s t : State) : Prop :=
  (∃ vs lo hi, vs.length = pre.length ∧
    t.trace = s.trace ++ readsAt pre vs ++
      [Access.wr (stackAddr s.S) (hiByte ret), Access.wr (stackAddr (s.S - 1)) (loByte ret),
        Access.wr (stackAddr (s.S - 2)) (pack b s.P), Access.rd vec lo, Access.rd (vec + 1) hi] ∧
    t.PC = mkAddr hi lo) ∧
  t.P = { s.P with I := true } ∧ t.S = s.S - 3 ∧ t.A = s.A ∧ t.X = s.X ∧ t.Y = s.Y ∧
  t.phase = .idle ∧ t.boundary = true ∧
  ∀ n, s.ramCell (stackAddr s.S) ≠ some n → s.ramCell (stackAddr (s.S - 1)) ≠ some n →
    s.ramCell (stackAddr (s.S - 2)) ≠ some n → Memory.read t.mem n = Memory.read s.mem n

/-- The three stack slots that an entry writes accept a write. -/
def stackAccepts (s : State) : Prop :=
  s.accepts (stackAddr s.S) = true ∧ s.accepts (stackAddr (s.S - 1)) = true ∧ s.accepts (stackAddr (s.S - 2)) = true

/-- The three stack slots that an entry writes are three cells of RAM. -/
def stackInRam (s : State) : Prop :=
  ∃ a b c, s.ramCell (stackAddr s.S) = some a ∧ s.ramCell (stackAddr (s.S - 1)) = some b ∧
    s.ramCell (stackAddr (s.S - 2)) = some c ∧ a ≠ b ∧ a ≠ c ∧ b ≠ c

/-- `RTI` from cycle 2 on (R253). -/
def returned (s : State) : State :=
  let d := dummyRead (stackAddr s.S) (dummyRead s.PC s)
  let p := pullByte d
  let lo := pullByte { p.2 with P := unpack p.1 }
  let hi := pullByte lo.2
  { hi.2 with PC := mkAddr hi.1 lo.1 }

/-- `RTS` from cycle 2 on (R232). -/
def returnedSub (s : State) : State :=
  let d := dummyRead (stackAddr s.S) (dummyRead s.PC s)
  let lo := pullByte d
  let hi := pullByte lo.2
  let ret := mkAddr hi.1 lo.1
  { dummyRead ret { hi.2 with PC := ret } with PC := ret + 1 }

/-- `JSR` from cycle 3 on (R231), with the low operand byte fetched; `PC` is at the high one. -/
def called (lo : Byte) (s : State) : Except Fault State :=
  (pushBytes [hiByte s.PC, loByte s.PC] (dummyRead (stackAddr s.S) s)).map fun t =>
    { (busRead t.PC t).2 with PC := mkAddr (busRead t.PC t).1 lo }

/-- The reset sequence (R390). -/
def afterReset (s : State) : State :=
  let s₁ := { dummyRead s.PC s with resetPending := false }
  let s₂ := dummyRead s.PC s₁
  let s₃ := { dummyRead (stackAddr s.S) s₂ with S := s.S - 1 }
  let s₄ := { dummyRead (stackAddr (s.S - 1)) s₃ with S := s.S - 2 }
  let s₅ := { dummyRead (stackAddr (s.S - 2)) s₄ with S := s.S - 3 }
  throughVector resetVector s₅

/-- A two-digit decimal number in a byte (R182): both nibbles at most 9, and its value. -/
def isBcd (a : Byte) : Prop := a.toNat / 16 ≤ 9 ∧ a.toNat % 16 ≤ 9

/-- The value of a two-digit decimal number. -/
def bcd (a : Byte) : Nat := a.toNat / 16 * 10 + a.toNat % 16

/-- The operations on the delay queue (R302, R306). -/
inductive QueueOp where
  | push (dest : Nat) (v : Byte) (delay : Nat)
  | execute

/-- A run of operations on the queue: the calls each `execute` made, in order, and the queue. -/
def runQueue : List QueueOp → DelayQueue → Except Fault (List (List (Nat × Byte)) × DelayQueue)
  | [], q => .ok ([], q)
  | .push d v n :: ops, q =>
    match q.push d v n with
    | .ok t => runQueue ops t
    | .error f => .error f
  | .execute :: ops, q =>
    match runQueue ops q.execute.2 with
    | .ok (log, t) => .ok (q.execute.1 :: log, t)
    | .error f => .error f

/-- `n` calls of `execute`: the handler's calls, one after another, and the queue. -/
def executes : Nat → DelayQueue → List (Nat × Byte) × DelayQueue
  | 0, q => ([], q)
  | n + 1, q => (q.execute.1 ++ (executes n q.execute.2).1, (executes n q.execute.2).2)

/-- How many bytes of an instruction are fetched before its meaning runs: all, but for the last of `JSR` (R231). -/
def fetchedBytes (i : Instr) : Nat := if opcode i = 0x20#8 then 2 else (encode i).length

end Sys2Proof.Spec

open Sys2Proof Sys2Proof.Machine Sys2Proof.Spec

/-! ## Encoding -/

/-- R91, R96, R97: the bytes of every instruction, with any bytes after them, decode to it, at every operand value. -/
def Obligations.DecodeEncode : Prop :=
  ∀ (i : Instr) (rest : List Byte), decode (encode i ++ rest) = .ok (i, rest)

/-- R90: a byte string that decodes is the encoding of what it decodes to, followed by the rest. -/
def Obligations.EncodeDecode : Prop :=
  ∀ (bytes : List Byte) (i : Instr) (rest : List Byte), decode bytes = .ok (i, rest) →
    encode i ++ rest = bytes ∧ i.wf = true

/-- R90, R95: the opcode byte alone decides the length, 1, 2 or 3, and with as many operand bytes every opcode byte
decodes; with fewer the string is refused by name. -/
def Obligations.DecodeByLength : Prop :=
  ∀ (op : Byte) (operands : List Byte), 1 ≤ opLength op ∧ opLength op ≤ 3 ∧
    (opLength op ≤ operands.length + 1 →
      ∃ i, decode (op :: operands) = .ok (i, operands.drop (opLength op - 1)) ∧ (encode i).length = opLength op) ∧
    (operands.length + 1 < opLength op → decode (op :: operands) = .error (.truncated op)) ∧
    decode [] = .error .empty

/-- R96, R68: words written out from the opcode map decode to the instructions they stand for; the low operand byte
comes first. -/
def Obligations.SampleWords : Prop :=
  decodeTableWord 16 0x01A9 = some (.ldaImm 0x01#8) ∧
  decodeTableWord 24 0x12348D = some (.staAbs 0x1234#16) ∧
  decodeTableWord 8 0xAA = some .tax ∧
  decodeTableWord 16 0x4669 = some (.adcImm 0x46#8) ∧
  decodeTableWord 24 0x0200CE = some (.decAbs 0x0200#16) ∧
  decodeTableWord 8 0x6A = some .rorAcc ∧
  decodeTableWord 16 0xF9D0 = some (.bne 0xF9#8) ∧
  decodeTableWord 24 0x02FF6C = some (.jmpInd 0x02FF#16) ∧
  decodeTableWord 24 0x030920 = some (.jsr 0x0309#16) ∧
  decodeTableWord 8 0x08 = some .php ∧
  decodeTableWord 8 0x00 = some .brk ∧
  decodeTableWord 16 0x10B1 = some (.ldaIzy 0x10#8) ∧
  decodeTableWord 16 0x1007 = some (.sloZp 0x10#8) ∧
  decodeTableWord 8 0x02 = some .jam02

/-! ## The step -/

/-- R112, R115, R90, R69 (a): at a boundary with no request the step is the meaning of the instruction fetched at `PC`;
every fetch decodes; and where the instruction's bytes lie in RAM at `PC` and after it, the fetch changes nothing but
`PC` and the record of its accesses. `JSR` fetches its last byte itself (R231). `settle` is the fatal halt of a read that
a device outside the block traps with no observer; from a quiet state no read does, and the step is `exec` itself. -/
def Obligations.StepRunsInstruction : Prop :=
  (∀ s : State, s.phase = .idle → s.request = none →
    ∃ i, decode (fetchInstr s.beginSequence).1 = .ok (i, []) ∧ step s = settle (exec i (fetchInstr s.beginSequence).2) ∧
      (s.quiet = true → step s = exec i (fetchInstr s.beginSequence).2)) ∧
  (∀ (s : State) (i : Instr), s.phase = .idle → s.request = none →
    (∀ k (h : k < (encode i).length), ramByte s (s.PC + BitVec.ofNat 16 k) = some (encode i)[k]) →
    step s = settle (exec i { s with
      PC := s.PC + BitVec.ofNat 16 (fetchedBytes i)
      traps := []
      trace := readsAt ((List.range (fetchedBytes i)).map fun k => s.PC + BitVec.ofNat 16 k) (encode i) }))

/-- R112, R113, R66, R134: from a boundary, a step that answers a next state is as many clock steps as it made bus
accesses, and the boundary signal is 0 after each clock step before the last; a step that halts the block is clock
steps that halt it, and one that is refused is refused by its first clock step. -/
def Obligations.StepIsClockSteps : Prop :=
  ∀ s : State, s.phase = .idle →
    (∀ t, step s = .next t → clockSteps t.trace.length s = .next t ∧
      ∀ k, 0 < k → k < t.trace.length →
        ∃ u, clockSteps k s = .next u ∧ u.boundary = false ∧ u.trace.length = k ∧ u.trace <+: t.trace) ∧
    (∀ f, step s = .fault f → ∃ k, clockSteps k s = .fault f) ∧
    (∀ r, step s = .refused r → clockSteps 1 s = .refused r)

/-- R66: a clock step outside `fatal` makes exactly one bus access. -/
def Obligations.OneAccessPerCycle : Prop :=
  ∀ s t : State, s.phase ≠ .fatal → clockStep s = .next t →
    ∃ a : Access, t.trace = s.trace ++ [a] ∨ t.trace = [a]

/-- R48, R363, R391: a fatal halt marks the state; after it no step of the CPU or of the driving loop, no `push` and no
`execute` has any effect, and no input clears the mark. -/
def Obligations.FatalHalt : Prop :=
  (∀ (s : State) (f : Fault), (afterStep s (.fault f)).phase = .fatal) ∧
  ∀ s : State, s.phase = .fatal →
    step s = .next { s with boundary := false } ∧ clockStep s = .next { s with boundary := false } ∧
    (∀ chip, tick chip s = .next ([], { s with boundary := false })) ∧
    (∀ p, pushQueue p s = .ok s) ∧ executeQueue s = ([], s) ∧
    (resetInput s).phase = .fatal ∧ (nmiEdge s).phase = .fatal ∧ ∀ b, (setIrq b s).phase = .fatal

/-- R352, R353, R358: RESET before NMI before IRQ, and IRQ only with `I = 0`; a request that is not taken stays as it is;
and a sequence in progress is never left for another before it has ended. -/
def Obligations.BoundaryRequests : Prop :=
  (∀ s : State, (s.request = some .reset ↔ s.resetPending = true) ∧
    (s.request = some .nmi ↔ s.resetPending = false ∧ s.nmiPending = true) ∧
    (s.request = some .irq ↔ s.resetPending = false ∧ s.nmiPending = false ∧ s.irqLine = true ∧ s.P.I = false) ∧
    (s.request = none ↔ s.resetPending = false ∧ s.nmiPending = false ∧ (s.irqLine = false ∨ s.P.I = true))) ∧
  (∀ s t : State, s.phase = .idle → step s = .next t →
    t.irqLine = s.irqLine ∧ (s.request ≠ some .nmi → t.nmiPending = s.nmiPending) ∧
    (s.request ≠ some .reset → t.resetPending = s.resetPending)) ∧
  (∀ (s t : State) (sq : Seq), s.phase = .run sq → clockStep s = .next t →
    t.phase = .idle ∨ ∃ sq', t.phase = .run sq' ∧ sq'.ir = sq.ir)

/-! ## Reset, interrupts and traps -/

/-- R390, R49: the reset sequence, as its table; what it changes and what it keeps. -/
def Obligations.ResetSequence : Prop :=
  ∀ s : State, s.phase = .idle → s.resetPending = true →
    step s = settle (.next (atBoundary (afterReset s.beginSequence))) ∧
    (s.quiet = true → step s = .next (atBoundary (afterReset s.beginSequence))) ∧
    (∀ t, step s = .next t →
      t.S = s.S - 3 ∧ t.P = { s.P with I := true } ∧ t.A = s.A ∧ t.X = s.X ∧ t.Y = s.Y ∧ t.mem = s.mem ∧
      t.dq = s.dq ∧ t.observer = s.observer ∧ t.irqLine = s.irqLine ∧ t.resetPending = false ∧
      t.phase = .idle ∧ t.boundary = true ∧
      ∃ v₁ v₂ v₃ v₄ v₅ lo hi, t.PC = mkAddr hi lo ∧
        t.trace = readsAt [s.PC, s.PC, stackAddr s.S, stackAddr (s.S - 1), stackAddr (s.S - 2), 0xFFFC#16, 0xFFFD#16]
          [v₁, v₂, v₃, v₄, v₅, lo, hi]) ∧
    (∀ lo hi, ramByte s 0xFFFC#16 = some lo → ramByte s 0xFFFD#16 = some hi →
      (∀ t, step s = .next t → t.PC = mkAddr hi lo))

/-- R354, R356: the NMI and IRQ sequences, as their table; NMI clears its latch; a write to the stack that halts the block
halts it here. -/
def Obligations.InterruptEntry : Prop :=
  ∀ s : State, s.phase = .idle →
    (s.request = some .nmi →
      (let u := dummyRead s.PC { dummyRead s.PC s.beginSequence with nmiPending := false }
       step s = settle
         (endWrite ((pushBytes [hiByte s.PC, loByte s.PC, pack false s.P] u).map (throughVector 0xFFFA#16)))) ∧
      (s.quiet = true → stackAccepts s → ∃ t, step s = .next t ∧ t.nmiPending = false ∧
        Entered false 0xFFFA#16 s.PC [s.PC, s.PC] s.beginSequence t)) ∧
    (s.request = some .irq →
      (let u := dummyRead s.PC (dummyRead s.PC s.beginSequence)
       step s = settle
         (endWrite ((pushBytes [hiByte s.PC, loByte s.PC, pack false s.P] u).map (throughVector 0xFFFE#16)))) ∧
      (s.quiet = true → stackAccepts s → ∃ t, step s = .next t ∧ t.irqLine = s.irqLine ∧
        Entered false 0xFFFE#16 s.PC [s.PC, s.PC] s.beginSequence t))

/-- R252, R355: `BRK` from cycle 2 on. The address pushed is that of the opcode plus 2, the status has `B = 1`, `I` is set
after the push, and `D` stays. -/
def Obligations.BreakEntry : Prop :=
  ∀ s : State, encode .brk = [0x00#8] ∧
    exec .brk s =
      endWrite ((pushBytes [hiByte (s.PC + 1), loByte (s.PC + 1), pack true s.P]
        { dummyRead s.PC s with PC := s.PC + 1 }).map (throughVector 0xFFFE#16)) ∧
    (stackAccepts s → ∃ t, exec .brk s = .next t ∧ Entered true 0xFFFE#16 (s.PC + 1) [s.PC] s t)

/-- R253: `RTI` from cycle 2 on, and what it restores from a stack in RAM. -/
def Obligations.ReturnFromInterrupt : Prop :=
  ∀ s : State, encode .rti = [0x40#8] ∧ exec .rti s = .next (atBoundary (returned s)) ∧
    (returned s).S = s.S + 3 ∧ (returned s).A = s.A ∧ (returned s).X = s.X ∧ (returned s).Y = s.Y ∧
    (returned s).mem = s.mem ∧ (returned s).trace.length = s.trace.length + 5 ∧
    ∀ p lo hi, ramByte s (stackAddr (s.S + 1)) = some p → ramByte s (stackAddr (s.S + 2)) = some lo →
      ramByte s (stackAddr (s.S + 3)) = some hi →
      (returned s).P = unpack p ∧ (returned s).PC = mkAddr hi lo

/-- R357, R252, R253: with three cells of RAM under the stack, `RTI` after `BRK`, or after an IRQ or NMI entry, restores the
flags, `I` among them, and `S`, and goes on after the `BRK`'s padding byte, or at the interrupted instruction. -/
def Obligations.InterruptRoundTrip : Prop :=
  ∀ s : State, stackInRam s →
    (∃ t, exec .brk s = .next t ∧ ∀ p : Addr, ∃ u, exec .rti { t with PC := p } = .next u ∧
      u.P = s.P ∧ u.S = s.S ∧ u.PC = s.PC + 1 ∧ u.A = s.A ∧ u.X = s.X ∧ u.Y = s.Y) ∧
    (s.quiet = true → s.phase = .idle → s.request = some .nmi ∨ s.request = some .irq →
      ∃ t, step s = .next t ∧ ∀ p : Addr, ∃ u, exec .rti { t with PC := p } = .next u ∧
        u.P = s.P ∧ u.S = s.S ∧ u.PC = s.PC ∧ u.A = s.A ∧ u.X = s.X ∧ u.Y = s.Y)

/-- R231, R232: `JSR` from cycle 3 on, with `PC` at its last byte, and `RTS` from cycle 2 on. -/
def Obligations.Subroutines : Prop :=
  (∀ (a : Addr) (s : State), encode (.jsr a) = [0x20#8, loByte a, hiByte a] ∧
    exec (.jsr a) s = endWrite (called (loByte a) s) ∧
    (s.accepts (stackAddr s.S) = true → s.accepts (stackAddr (s.S - 1)) = true →
      ∃ t, exec (.jsr a) s = .next t ∧ t.S = s.S - 2 ∧ t.P = s.P ∧ t.A = s.A ∧ t.X = s.X ∧ t.Y = s.Y ∧
        ∃ v hi, t.PC = mkAddr hi (loByte a) ∧ t.trace = s.trace ++
          [Access.rd (stackAddr s.S) v, Access.wr (stackAddr s.S) (hiByte s.PC),
            Access.wr (stackAddr (s.S - 1)) (loByte s.PC), Access.rd s.PC hi] ∧
        (ramByte s s.PC = some (hiByte a) → s.ramCell s.PC ≠ s.ramCell (stackAddr s.S) →
          s.ramCell s.PC ≠ s.ramCell (stackAddr (s.S - 1)) → t.PC = a))) ∧
  (∀ s : State, encode .rts = [0x60#8] ∧ exec .rts s = .next (atBoundary (returnedSub s)) ∧
    (returnedSub s).S = s.S + 2 ∧ (returnedSub s).P = s.P ∧ (returnedSub s).A = s.A ∧ (returnedSub s).X = s.X ∧
    (returnedSub s).Y = s.Y ∧ (returnedSub s).mem = s.mem ∧ (returnedSub s).trace.length = s.trace.length + 5 ∧
    ∀ lo hi, ramByte s (stackAddr (s.S + 1)) = some lo → ramByte s (stackAddr (s.S + 2)) = some hi →
      (returnedSub s).PC = mkAddr hi lo + 1)

/-- R231, R232, R233: with two cells of RAM under the stack, `RTS` after `JSR` goes on after the `JSR`, and the registers
and flags pass through both. -/
def Obligations.SubroutineRoundTrip : Prop :=
  ∀ (a : Addr) (s : State) (m n : Nat), s.ramCell (stackAddr s.S) = some m →
    s.ramCell (stackAddr (s.S - 1)) = some n → m ≠ n →
    ∃ t, exec (.jsr a) s = .next t ∧ ∀ p : Addr, ∃ u, exec .rts { t with PC := p } = .next u ∧
      u.PC = s.PC + 1 ∧ u.S = s.S ∧ u.P = s.P ∧ u.A = s.A ∧ u.X = s.X ∧ u.Y = s.Y

/-- R391: `reset()` at any time sets its latch, clears that of NMI and abandons a sequence in progress, and changes
nothing else; the next step is the reset sequence. -/
def Obligations.ResetInput : Prop :=
  ∀ s : State,
    resetInput s = { s with
      resetPending := true, nmiPending := false, phase := if s.phase = .fatal then .fatal else .idle } ∧
    (s.phase ≠ .fatal → step (resetInput s) = settle (.next (atBoundary (afterReset (resetInput s).beginSequence))))

/-- R272: `JAM` locks the CPU up: one further read of `PC`, then a read at `0xFFFF`, twice at `0xFFFE`, and at `0xFFFF` for
ever; no clock step reaches a boundary, whatever the interrupt inputs; the registers stay; `reset()` alone ends it. That a
step is then one clock step is the model's own, log entry 10. -/
def Obligations.JamLocksUp : Prop :=
  ∀ f ∈ jamForms, encode f.2 = [f.1] ∧
    (∀ s : State, s.undoc = .annex →
      exec f.2 s = .next { dummyRead s.PC s with
        phase := .run { ir := .op f.1, t := 3, q := Latches.empty }, boundary := false }) ∧
    (∀ (s : State) (t : Nat) (q : Latches), 3 ≤ t → s.phase = .run { ir := .op f.1, t, q } →
      (∀ u, clockStep s = .next u →
        ∃ v, u.trace = [Access.rd (if t = 4 ∨ t = 5 then 0xFFFE#16 else 0xFFFF#16) v]) ∧
      (∀ n u, clockSteps (n + 1) s = .next u → ∃ t', 3 ≤ t' ∧ u.phase = .run { ir := .op f.1, t := t', q } ∧
        u.boundary = false ∧ u.A = s.A ∧ u.X = s.X ∧ u.Y = s.Y ∧ u.S = s.S ∧ u.PC = s.PC ∧ u.P = s.P ∧
        u.mem = s.mem) ∧
      (s.quiet = true → ∀ n, ∃ u, clockSteps n s = .next u) ∧
      step s = clockStep s ∧
      (resetInput s).phase = .idle ∧ (nmiEdge s).phase = s.phase ∧ ∀ b, (setIrq b s).phase = s.phase)

/-! ## Loads, stores and transfers -/

/-- R160, R161, R162. -/
def Obligations.Loads : Prop :=
  ∀ (x : Addr) (s : State),
    (∀ e ∈ ldaForms, Reads e (fun m t => { t with A := m, P := { t.P with N := m.getLsbD 7, Z := m == 0#8 } }) x s) ∧
    (∀ e ∈ ldxForms, Reads e (fun m t => { t with X := m, P := { t.P with N := m.getLsbD 7, Z := m == 0#8 } }) x s) ∧
    (∀ e ∈ ldyForms, Reads e (fun m t => { t with Y := m, P := { t.P with N := m.getLsbD 7, Z := m == 0#8 } }) x s)

/-- R163, R164, R165. -/
def Obligations.Stores : Prop :=
  ∀ (x : Addr) (s : State),
    (∀ e ∈ staForms, Writes e (fun s => s.A) x s) ∧
    (∀ e ∈ stxForms, Writes e (fun s => s.X) x s) ∧
    (∀ e ∈ styForms, Writes e (fun s => s.Y) x s)

/-- R166 to R171. -/
def Obligations.Transfers : Prop :=
  ∀ s : State,
    Implied .tax 0xAA#8 (fun t => { t with X := t.A, P := { t.P with N := t.A.getLsbD 7, Z := t.A == 0#8 } }) s ∧
    Implied .tay 0xA8#8 (fun t => { t with Y := t.A, P := { t.P with N := t.A.getLsbD 7, Z := t.A == 0#8 } }) s ∧
    Implied .txa 0x8A#8 (fun t => { t with A := t.X, P := { t.P with N := t.X.getLsbD 7, Z := t.X == 0#8 } }) s ∧
    Implied .tya 0x98#8 (fun t => { t with A := t.Y, P := { t.P with N := t.Y.getLsbD 7, Z := t.Y == 0#8 } }) s ∧
    Implied .tsx 0xBA#8 (fun t => { t with X := t.S, P := { t.P with N := t.S.getLsbD 7, Z := t.S == 0#8 } }) s ∧
    Implied .txs 0x9A#8 (fun t => { t with S := t.X }) s

/-! ## Arithmetic and logic -/

/-- R186 to R189. -/
def Obligations.Logic : Prop :=
  ∀ (x : Addr) (s : State),
    (∀ e ∈ oraForms, Reads e (fun m t => { t with
      A := t.A ||| m, P := { t.P with N := (t.A ||| m).getLsbD 7, Z := t.A ||| m == 0#8 } }) x s) ∧
    (∀ e ∈ andForms, Reads e (fun m t => { t with
      A := t.A &&& m, P := { t.P with N := (t.A &&& m).getLsbD 7, Z := t.A &&& m == 0#8 } }) x s) ∧
    (∀ e ∈ eorForms, Reads e (fun m t => { t with
      A := t.A ^^^ m, P := { t.P with N := (t.A ^^^ m).getLsbD 7, Z := t.A ^^^ m == 0#8 } }) x s) ∧
    (∀ e ∈ bitForms, Reads e (fun m t => { t with
      P := { t.P with Z := t.A &&& m == 0#8, N := m.getLsbD 7, V := m.getLsbD 6 } }) x s)

/-- R190, R191: the result and the four flags are those of the binary function with `D = 0` and of `DECIMAL` with
`D = 1`. -/
def Obligations.AddSubtract : Prop :=
  ∀ (x : Addr) (s : State),
    (∀ e ∈ adcForms, Reads e (fun m t =>
      let v := if t.P.D then decimalAdd t.platform.decimal t.A m t.P.C else adcBin t.A m t.P.C
      { t with A := v.r, P := { t.P with N := v.N, V := v.V, Z := v.Z, C := v.C } }) x s) ∧
    (∀ e ∈ sbcForms, Reads e (fun m t =>
      let v := if t.P.D then decimalSub t.platform.decimal t.A m t.P.C else sbcBin t.A m t.P.C
      { t with A := v.r, P := { t.P with N := v.N, V := v.V, Z := v.Z, C := v.C } }) x s)

/-- R181, R183: the binary functions in exact arithmetic: the result modulo 256, `C` the carry or the absence of a borrow,
`V` the signed result out of range, `N` and `Z` of the result. -/
def Obligations.BinaryArithmetic : Prop :=
  ∀ (a m : Byte) (c : Bool),
    (let v := adcBin a m c
     v.r.toNat = (a.toNat + m.toNat + c.toNat) % 256 ∧
     (v.C = true ↔ 255 < a.toNat + m.toNat + c.toNat) ∧
     (v.V = true ↔ a.toInt + m.toInt + c.toNat < -128 ∨ 127 < a.toInt + m.toInt + c.toNat) ∧
     v.N = v.r.getLsbD 7 ∧ (v.Z = true ↔ v.r = 0#8)) ∧
    (let v := sbcBin a m c
     (v.r.toNat : Int) = ((a.toNat : Int) - m.toNat - (1 - c.toNat)) % 256 ∧
     (v.C = true ↔ 0 ≤ (a.toNat : Int) - m.toNat - (1 - c.toNat)) ∧
     (v.V = true ↔ a.toInt - m.toInt - (1 - c.toNat) < -128 ∨ 127 < a.toInt - m.toInt - (1 - c.toNat)) ∧
     v.N = v.r.getLsbD 7 ∧ (v.Z = true ↔ v.r = 0#8))

/-- R182, R184, `DECIMAL` at its default: on decimal operands the decimal functions give the two-digit sum or difference
and its carry or the absence of a borrow. On all operands: the sum nibble by nibble, in exact arithmetic, with `C`, `N`
and `V` from the intermediate value and `Z` from the binary sum; the difference likewise, its four flags those of the
binary difference. -/
def Obligations.DecimalArithmetic : Prop :=
  (∀ (a m : Byte) (c : Bool), isBcd a → isBcd m →
    (let v := adcDec a m c
     isBcd v.r ∧ bcd v.r = (bcd a + bcd m + c.toNat) % 100 ∧ (v.C = true ↔ 100 ≤ bcd a + bcd m + c.toNat)) ∧
    (let v := sbcDec a m c
     isBcd v.r ∧ (bcd v.r : Int) = ((bcd a : Int) - bcd m - (1 - c.toNat)) % 100 ∧
     (v.C = true ↔ 0 ≤ (bcd a : Int) - bcd m - (1 - c.toNat)))) ∧
  (∀ (a m : Byte) (c : Bool),
    decimalAdd .nmos a m c = adcDec a m c ∧ decimalSub .nmos a m c = sbcDec a m c ∧
    (let low := a.toNat % 16 + m.toNat % 16 + c.toNat
     let sum := (a.toNat / 16 + m.toNat / 16) * 16 + (if low < 10 then low else (low + 6) % 16 + 16)
     let v := adcDec a m c
     v.r.toNat = (if sum < 0xA0 then sum else sum + 0x60) % 256 ∧ (v.C = true ↔ 0xA0 ≤ sum) ∧
     (v.N = true ↔ 128 ≤ sum % 256) ∧
     (v.V = true ↔ (a.toNat < 128 ↔ m.toNat < 128) ∧ ¬(a.toNat < 128 ↔ sum % 256 < 128)) ∧
     (v.Z = true ↔ (a.toNat + m.toNat + c.toNat) % 256 = 0)) ∧
    (let low : Int := (a.toNat % 16 : Nat) - (m.toNat % 16 : Nat) - (1 - c.toNat)
     let diff : Int := ((a.toNat / 16 : Nat) - (m.toNat / 16 : Nat)) * 16 + (if low < 0 then (low - 6) % 16 - 16 else low)
     ((sbcDec a m c).r.toNat : Int) = (if diff < 0 then diff - 0x60 else diff) % 256) ∧
    (sbcDec a m c).C = (sbcBin a m c).C ∧ (sbcDec a m c).V = (sbcBin a m c).V ∧
    (sbcDec a m c).N = (sbcBin a m c).N ∧ (sbcDec a m c).Z = (sbcBin a m c).Z)

/-- R185, R192, R193, R194: a compare writes no register, and `V` and `D` neither change nor matter. -/
def Obligations.Compares : Prop :=
  ∀ (x : Addr) (s : State),
    (∀ e ∈ cmpForms, Reads e (fun m t => { t with
      P := { t.P with C := m.toNat ≤ t.A.toNat, Z := t.A == m, N := (t.A - m).getLsbD 7 } }) x s) ∧
    (∀ e ∈ cpxForms, Reads e (fun m t => { t with
      P := { t.P with C := m.toNat ≤ t.X.toNat, Z := t.X == m, N := (t.X - m).getLsbD 7 } }) x s) ∧
    (∀ e ∈ cpyForms, Reads e (fun m t => { t with
      P := { t.P with C := m.toNat ≤ t.Y.toNat, Z := t.Y == m, N := (t.Y - m).getLsbD 7 } }) x s)

/-- R195, R196. -/
def Obligations.IncDecMemory : Prop :=
  ∀ (x : Addr) (s : State),
    (∀ e ∈ incForms, Modifies e (fun m _ => m + 1)
      (fun m t => { t with P := { t.P with N := (m + 1).getLsbD 7, Z := m + 1 == 0#8 } }) x s) ∧
    (∀ e ∈ decForms, Modifies e (fun m _ => m - 1)
      (fun m t => { t with P := { t.P with N := (m - 1).getLsbD 7, Z := m - 1 == 0#8 } }) x s)

/-- R197 to R200. -/
def Obligations.IncDecRegister : Prop :=
  ∀ s : State,
    Implied .inx 0xE8#8
      (fun t => { t with X := t.X + 1, P := { t.P with N := (t.X + 1).getLsbD 7, Z := t.X + 1 == 0#8 } }) s ∧
    Implied .iny 0xC8#8
      (fun t => { t with Y := t.Y + 1, P := { t.P with N := (t.Y + 1).getLsbD 7, Z := t.Y + 1 == 0#8 } }) s ∧
    Implied .dex 0xCA#8
      (fun t => { t with X := t.X - 1, P := { t.P with N := (t.X - 1).getLsbD 7, Z := t.X - 1 == 0#8 } }) s ∧
    Implied .dey 0x88#8
      (fun t => { t with Y := t.Y - 1, P := { t.P with N := (t.Y - 1).getLsbD 7, Z := t.Y - 1 == 0#8 } }) s

/-- R201 to R204: a shift of memory writes the result back, a shift of `A` keeps it in `A`. -/
def Obligations.Shifts : Prop :=
  ∀ (x : Addr) (s : State),
    (∀ e ∈ aslForms, Modifies e (fun m _ => m <<< 1) (fun m t => { t with
      P := { t.P with C := m.getLsbD 7, N := (m <<< 1).getLsbD 7, Z := m <<< 1 == 0#8 } }) x s) ∧
    (∀ e ∈ lsrForms, Modifies e (fun m _ => m >>> 1) (fun m t => { t with
      P := { t.P with C := m.getLsbD 0, N := false, Z := m >>> 1 == 0#8 } }) x s) ∧
    (∀ e ∈ rolForms, Modifies e (fun m p => (m <<< 1) ||| bit p.C) (fun m t => { t with
      P := { t.P with C := m.getLsbD 7, N := m.getLsbD 6, Z := (m <<< 1) ||| bit t.P.C == 0#8 } }) x s) ∧
    (∀ e ∈ rorForms, Modifies e (fun m p => (m >>> 1) ||| (bit p.C <<< 7)) (fun m t => { t with
      P := { t.P with C := m.getLsbD 0, N := t.P.C, Z := (m >>> 1) ||| (bit t.P.C <<< 7) == 0#8 } }) x s) ∧
    Implied .aslAcc 0x0A#8 (fun t => { t with
      A := t.A <<< 1, P := { t.P with C := t.A.getLsbD 7, N := (t.A <<< 1).getLsbD 7, Z := t.A <<< 1 == 0#8 } }) s ∧
    Implied .lsrAcc 0x4A#8 (fun t => { t with
      A := t.A >>> 1, P := { t.P with C := t.A.getLsbD 0, N := false, Z := t.A >>> 1 == 0#8 } }) s ∧
    Implied .rolAcc 0x2A#8 (fun t => { t with
      A := (t.A <<< 1) ||| bit t.P.C
      P := { t.P with C := t.A.getLsbD 7, N := t.A.getLsbD 6, Z := (t.A <<< 1) ||| bit t.P.C == 0#8 } }) s ∧
    Implied .rorAcc 0x6A#8 (fun t => { t with
      A := (t.A >>> 1) ||| (bit t.P.C <<< 7)
      P := { t.P with C := t.A.getLsbD 0, N := t.P.C, Z := (t.A >>> 1) ||| (bit t.P.C <<< 7) == 0#8 } }) s

/-! ## Control transfer -/

/-- R220 to R228: from the state after the displacement is fetched, with `PC` the address of the next instruction: no
further cycle when the condition fails, one when the target is in that instruction's page, two when it is not; no flag
and no register but `PC` is written. -/
def Obligations.Branches : Prop :=
  ∀ f ∈ branchForms, ∀ (d : Byte) (s : State),
    (let target := s.PC + d.signExtend 16
     encode (f.2.2 d) = [f.1, d] ∧
     (f.2.1 s.P = false → exec (f.2.2 d) s = .next (atBoundary s)) ∧
     (f.2.1 s.P = true → hiByte target = hiByte s.PC →
       exec (f.2.2 d) s = .next (atBoundary { dummyRead s.PC s with PC := target })) ∧
     (f.2.1 s.P = true → hiByte target ≠ hiByte s.PC →
       exec (f.2.2 d) s = .next (atBoundary
         { dummyRead (mkAddr (hiByte s.PC) (loByte target)) (dummyRead s.PC s) with PC := target })))

/-- R229, R230: `JMP`; the pointer of the indirect form wraps within its page. -/
def Obligations.Jumps : Prop :=
  ∀ (a : Addr) (s : State),
    encode (.jmpAbs a) = [0x4C#8, loByte a, hiByte a] ∧
    exec (.jmpAbs a) s = .next (atBoundary { s with PC := a }) ∧
    encode (.jmpInd a) = [0x6C#8, loByte a, hiByte a] ∧
    (let lo := busRead a s
     let hi := busRead (mkAddr (hiByte a) (loByte a + 1)) lo.2
     exec (.jmpInd a) s = .next (atBoundary { hi.2 with PC := mkAddr hi.1 lo.1 })) ∧
    (∀ lo hi, ramByte s a = some lo → ramByte s (mkAddr (hiByte a) (loByte a + 1)) = some hi →
      ∃ t, exec (.jmpInd a) s = .next t ∧ t.PC = mkAddr hi lo ∧ t.trace.length = s.trace.length + 2)

/-! ## Stack and flags -/

/-- R240 to R243, R23: pushes write at `0x0100 + S` and then lower `S`; pulls raise `S` and then read. `PHP` pushes with
bits 5 and 4 set, `PLP` ignores them. -/
def Obligations.StackInstructions : Prop :=
  ∀ s : State,
    (encode .pha = [0x48#8] ∧ encode .php = [0x08#8] ∧ encode .pla = [0x68#8] ∧ encode .plp = [0x28#8]) ∧
    exec .pha s = endWrite ((busWrite (mkAddr 0x01#8 s.S) s.A (dummyRead s.PC s)).map fun t => { t with S := s.S - 1 }) ∧
    exec .php s =
      endWrite ((busWrite (mkAddr 0x01#8 s.S) (pack true s.P) (dummyRead s.PC s)).map fun t => { t with S := s.S - 1 }) ∧
    (s.accepts (mkAddr 0x01#8 s.S) = true →
      (∃ t, exec .pha s = .next t ∧ t.S = s.S - 1 ∧ t.P = s.P ∧ t.A = s.A ∧
        ∃ v, t.trace = s.trace ++ [Access.rd s.PC v, Access.wr (mkAddr 0x01#8 s.S) s.A]) ∧
      (∃ t, exec .php s = .next t ∧ t.S = s.S - 1 ∧ t.P = s.P ∧ t.A = s.A ∧
        ∃ v, t.trace = s.trace ++ [Access.rd s.PC v, Access.wr (mkAddr 0x01#8 s.S) (pack true s.P)])) ∧
    (let p := pullByte (dummyRead (mkAddr 0x01#8 s.S) (dummyRead s.PC s))
     p.2.S = s.S + 1 ∧ (∀ v, ramByte s (mkAddr 0x01#8 (s.S + 1)) = some v → p.1 = v) ∧
     exec .pla s = .next (atBoundary { p.2 with
       A := p.1, P := { s.P with N := p.1.getLsbD 7, Z := p.1 == 0#8 } }) ∧
     exec .plp s = .next (atBoundary { p.2 with
       P := { N := p.1.getLsbD 7, V := p.1.getLsbD 6, D := p.1.getLsbD 3, I := p.1.getLsbD 2, Z := p.1.getLsbD 1,
              C := p.1.getLsbD 0 } }))

/-- R244 to R251. -/
def Obligations.FlagInstructions : Prop :=
  ∀ s : State,
    Implied .clc 0x18#8 (fun t => { t with P := { t.P with C := false } }) s ∧
    Implied .sec 0x38#8 (fun t => { t with P := { t.P with C := true } }) s ∧
    Implied .cli 0x58#8 (fun t => { t with P := { t.P with I := false } }) s ∧
    Implied .sei 0x78#8 (fun t => { t with P := { t.P with I := true } }) s ∧
    Implied .clv 0xB8#8 (fun t => { t with P := { t.P with V := false } }) s ∧
    Implied .cld 0xD8#8 (fun t => { t with P := { t.P with D := false } }) s ∧
    Implied .sed 0xF8#8 (fun t => { t with P := { t.P with D := true } }) s ∧
    Implied .nop 0xEA#8 (fun t => t) s

/-- R27, R28: the pushed byte bit by bit; pulling it restores the flags; and a pulled byte is pushed again with bits 5 and
4 replaced. -/
def Obligations.StatusByte : Prop :=
  (∀ (b : Bool) (p : Flags),
    pack b p = (bit p.N <<< 7) ||| (bit p.V <<< 6) ||| (bit true <<< 5) ||| (bit b <<< 4) ||| (bit p.D <<< 3) |||
      (bit p.I <<< 2) ||| (bit p.Z <<< 1) ||| bit p.C) ∧
  (∀ v : Byte, unpack v = { N := v.getLsbD 7, V := v.getLsbD 6, D := v.getLsbD 3, I := v.getLsbD 2, Z := v.getLsbD 1,
                            C := v.getLsbD 0 }) ∧
  (∀ (b : Bool) (p : Flags), unpack (pack b p) = p) ∧
  (∀ (b : Bool) (v : Byte), pack b (unpack v) = (v &&& 0xCF#8) ||| 0x20#8 ||| (bit b <<< 4))

/-! ## Undocumented opcodes -/

/-- R271, under `UNDOC_POLICY = annex`: the addressing mode's reads are made and the byte is discarded. -/
def Obligations.UndocNops : Prop :=
  ∀ s : State, s.undoc = .annex →
    (∀ e ∈ nopForms, ∀ x, Reads e (fun _ t => t) x s) ∧
    (∀ f ∈ nopImpForms, Implied f.2 f.1 (fun t => t) s)

/-- R273, R274, R275, R276, R279, R280, under `annex`: the memory operation, then the register operation on the new
value, with the carry just produced. -/
def Obligations.UndocReadModifyWrite : Prop :=
  ∀ (x : Addr) (s : State), s.undoc = .annex →
    (∀ e ∈ sloForms, Modifies e (fun m _ => m <<< 1) (fun m t =>
      let r := t.A ||| (m <<< 1)
      { t with A := r, P := { t.P with C := m.getLsbD 7, N := r.getLsbD 7, Z := r == 0#8 } }) x s) ∧
    (∀ e ∈ rlaForms, Modifies e (fun m p => (m <<< 1) ||| bit p.C) (fun m t =>
      let r := t.A &&& ((m <<< 1) ||| bit t.P.C)
      { t with A := r, P := { t.P with C := m.getLsbD 7, N := r.getLsbD 7, Z := r == 0#8 } }) x s) ∧
    (∀ e ∈ sreForms, Modifies e (fun m _ => m >>> 1) (fun m t =>
      let r := t.A ^^^ (m >>> 1)
      { t with A := r, P := { t.P with C := m.getLsbD 0, N := r.getLsbD 7, Z := r == 0#8 } }) x s) ∧
    (∀ e ∈ rraForms, Modifies e (fun m p => (m >>> 1) ||| (bit p.C <<< 7)) (fun m t =>
      let r := (m >>> 1) ||| (bit t.P.C <<< 7)
      let v := if t.P.D then decimalAdd t.platform.decimal t.A r (m.getLsbD 0) else adcBin t.A r (m.getLsbD 0)
      { t with A := v.r, P := { t.P with N := v.N, V := v.V, Z := v.Z, C := v.C } }) x s) ∧
    (∀ e ∈ dcpForms, Modifies e (fun m _ => m - 1) (fun m t => { t with
      P := { t.P with C := (m - 1).toNat ≤ t.A.toNat, Z := t.A == m - 1, N := (t.A - (m - 1)).getLsbD 7 } }) x s) ∧
    (∀ e ∈ iscForms, Modifies e (fun m _ => m + 1) (fun m t =>
      let v := if t.P.D then decimalSub t.platform.decimal t.A (m + 1) t.P.C else sbcBin t.A (m + 1) t.P.C
      { t with A := v.r, P := { t.P with N := v.N, V := v.V, Z := v.Z, C := v.C } }) x s)

/-- R277, R278, under `annex`. -/
def Obligations.SaxLax : Prop :=
  ∀ (x : Addr) (s : State), s.undoc = .annex →
    (∀ e ∈ saxForms, Writes e (fun s => s.A &&& s.X) x s) ∧
    (∀ e ∈ laxForms, Reads e (fun m t =>
      { t with A := m, X := m, P := { t.P with N := m.getLsbD 7, Z := m == 0#8 } }) x s)

/-- R281, R282, R284, R285, under `annex`: `ANC`, `ALR`, `SBX` and the second `SBC` immediate. -/
def Obligations.UndocImmediates : Prop :=
  ∀ (x : Addr) (s : State), s.undoc = .annex →
    (∀ e ∈ ancForms, Reads e (fun m t =>
      let r := t.A &&& m
      { t with A := r, P := { t.P with N := r.getLsbD 7, Z := r == 0#8, C := r.getLsbD 7 } }) x s) ∧
    Reads ⟨.imm, 0x4B#8, 2, fun x => .alrImm (loByte x)⟩ (fun m t =>
      let r := (t.A &&& m) >>> 1
      { t with A := r, P := { t.P with N := false, Z := r == 0#8, C := (t.A &&& m).getLsbD 0 } }) x s ∧
    Reads ⟨.imm, 0xCB#8, 2, fun x => .sbxImm (loByte x)⟩ (fun m t =>
      let r := (t.A &&& t.X) - m
      { t with X := r, P := { t.P with N := r.getLsbD 7, Z := r == 0#8, C := m.toNat ≤ (t.A &&& t.X).toNat } }) x s ∧
    Reads ⟨.imm, 0xEB#8, 2, fun x => .usbcImm (loByte x)⟩ (fun m t =>
      let v := if t.P.D then decimalSub t.platform.decimal t.A m t.P.C else sbcBin t.A m t.P.C
      { t with A := v.r, P := { t.P with N := v.N, V := v.V, Z := v.Z, C := v.C } }) x s

/-- R283, under `annex`: `ARR` in both modes. That the form with `D = 1` has this effect, which R283 calls less firmly
established, is the model's choice: log entry 22. -/
def Obligations.ArrBothModes : Prop :=
  ∀ (x : Addr) (s : State), s.undoc = .annex →
    Reads ⟨.imm, 0x6B#8, 2, fun x => .arrImm (loByte x)⟩ (fun m t =>
      let v := t.A &&& m
      let r := (v >>> 1) ||| (bit t.P.C <<< 7)
      if t.P.D then
        let low := (v &&& 0x0F#8).toNat + (v &&& 0x01#8).toNat
        let high := (v &&& 0xF0#8).toNat + (v &&& 0x10#8).toNat
        let r₁ := if 5 < low then (r &&& 0xF0#8) ||| ((r + 6) &&& 0x0F#8) else r
        { t with
          A := if 0x50 < high then r₁ + 0x60 else r₁
          P := { t.P with N := t.P.C, Z := r == 0#8, V := (r ^^^ v).getLsbD 6, C := 0x50 < high } }
      else
        { t with A := r, P := { t.P with
            N := r.getLsbD 7, Z := r == 0#8, C := r.getLsbD 6, V := r.getLsbD 6 ^^ r.getLsbD 5 } }) x s

/-- R286 to R292: an unstable opcode is refused under every policy, from every state, by its name. -/
def Obligations.UnstableRefused : Prop :=
  ∀ (d : Byte) (a : Addr) (s : State),
    exec (.aneImm d) s = .refused (.unstableOpcode 0x8B#8) ∧ encode (.aneImm d) = [0x8B#8, d] ∧
    exec (.lxaImm d) s = .refused (.unstableOpcode 0xAB#8) ∧ encode (.lxaImm d) = [0xAB#8, d] ∧
    exec (.shaIzy d) s = .refused (.unstableOpcode 0x93#8) ∧ encode (.shaIzy d) = [0x93#8, d] ∧
    exec (.shaAby a) s = .refused (.unstableOpcode 0x9F#8) ∧ encode (.shaAby a) = [0x9F#8, loByte a, hiByte a] ∧
    exec (.shxAby a) s = .refused (.unstableOpcode 0x9E#8) ∧ encode (.shxAby a) = [0x9E#8, loByte a, hiByte a] ∧
    exec (.shyAbx a) s = .refused (.unstableOpcode 0x9C#8) ∧ encode (.shyAbx a) = [0x9C#8, loByte a, hiByte a] ∧
    exec (.tasAby a) s = .refused (.unstableOpcode 0x9B#8) ∧ encode (.tasAby a) = [0x9B#8, loByte a, hiByte a] ∧
    exec (.lasAby a) s = .refused (.unstableOpcode 0xBB#8) ∧ encode (.lasAby a) = [0xBB#8, loByte a, hiByte a]

/-- R270: under `refuse` each of the 105 undocumented opcodes is refused; a documented one never is; under `annex` only
the unstable ones are. -/
def Obligations.UndocPolicy : Prop :=
  ∀ (i : Instr) (s : State),
    (s.undoc = .refuse → opcode i ∈ undocumentedOps → ∃ r, exec i s = .refused r) ∧
    (opcode i ∉ undocumentedOps → ∀ r, exec i s ≠ .refused r) ∧
    (s.undoc = .annex → opcode i ∉ unstableOps → ∀ r, exec i s ≠ .refused r)

/-! ## Addressing, bus and devices -/

/-- R92, R119 to R128, R69: with every byte that a mode reads in RAM, the operand it delivers, at the address that the
table of R92 gives, with its wrap-arounds; nothing but the record of the accesses changes. -/
def Obligations.OperandOverRam : Prop :=
  ∀ (x : Addr) (s : State),
    Mode.operand .imm x s = (loByte x, s) ∧
    (∀ m, ramByte s (mkAddr 0#8 (loByte x)) = some m →
      Mode.operand .zp x s = (m, { s with trace := s.trace ++ [Access.rd (mkAddr 0#8 (loByte x)) m] })) ∧
    (∀ v m, ramByte s (mkAddr 0#8 (loByte x)) = some v → ramByte s (mkAddr 0#8 (loByte x + s.X)) = some m →
      Mode.operand .zpx x s = (m, { s with trace := s.trace ++
        [Access.rd (mkAddr 0#8 (loByte x)) v, Access.rd (mkAddr 0#8 (loByte x + s.X)) m] })) ∧
    (∀ v m, ramByte s (mkAddr 0#8 (loByte x)) = some v → ramByte s (mkAddr 0#8 (loByte x + s.Y)) = some m →
      Mode.operand .zpy x s = (m, { s with trace := s.trace ++
        [Access.rd (mkAddr 0#8 (loByte x)) v, Access.rd (mkAddr 0#8 (loByte x + s.Y)) m] })) ∧
    (∀ m, ramByte s x = some m → Mode.operand .abs x s = (m, { s with trace := s.trace ++ [Access.rd x m] })) ∧
    (∀ i md, (md = Mode.abx ∧ i = s.X) ∨ (md = Mode.aby ∧ i = s.Y) →
      ∀ v m, ramByte s (x + i.setWidth 16) = some m →
        ramByte s (mkAddr (hiByte x) (loByte x + i)) = some v →
        md.operand x s = (m, { s with trace := s.trace ++
          (if 255 < (loByte x).toNat + i.toNat then [Access.rd (mkAddr (hiByte x) (loByte x + i)) v] else []) ++
          [Access.rd (x + i.setWidth 16) m] })) ∧
    (∀ v lo hi m, ramByte s (mkAddr 0#8 (loByte x)) = some v →
      ramByte s (mkAddr 0#8 (loByte x + s.X)) = some lo → ramByte s (mkAddr 0#8 (loByte x + s.X + 1)) = some hi →
      ramByte s (mkAddr hi lo) = some m →
      Mode.operand .izx x s = (m, { s with trace := s.trace ++
        [Access.rd (mkAddr 0#8 (loByte x)) v, Access.rd (mkAddr 0#8 (loByte x + s.X)) lo,
          Access.rd (mkAddr 0#8 (loByte x + s.X + 1)) hi, Access.rd (mkAddr hi lo) m] })) ∧
    (∀ lo hi v m, ramByte s (mkAddr 0#8 (loByte x)) = some lo → ramByte s (mkAddr 0#8 (loByte x + 1)) = some hi →
      ramByte s (mkAddr hi lo + s.Y.setWidth 16) = some m → ramByte s (mkAddr hi (lo + s.Y)) = some v →
      Mode.operand .izy x s = (m, { s with trace := s.trace ++
        [Access.rd (mkAddr 0#8 (loByte x)) lo, Access.rd (mkAddr 0#8 (loByte x + 1)) hi] ++
        (if 255 < lo.toNat + s.Y.toNat then [Access.rd (mkAddr hi (lo + s.Y)) v] else []) ++
        [Access.rd (mkAddr hi lo + s.Y.setWidth 16) m] }))

/-- R120 to R128, R132, R150: on any bus, the accesses that the write and rmw classes make to resolve an address, the
dummy reads among them, and the address they resolve; the correction cycle of an indexed mode is always spent. -/
def Obligations.AddressAccesses : Prop :=
  ∀ (x : Addr) (s : State),
    Mode.address .zp x s = (mkAddr 0#8 (loByte x), s) ∧
    ((Mode.address .zpx x s).1 = mkAddr 0#8 (loByte x + s.X) ∧
      ∃ v, (Mode.address .zpx x s).2.trace = s.trace ++ [Access.rd (mkAddr 0#8 (loByte x)) v]) ∧
    ((Mode.address .zpy x s).1 = mkAddr 0#8 (loByte x + s.Y) ∧
      ∃ v, (Mode.address .zpy x s).2.trace = s.trace ++ [Access.rd (mkAddr 0#8 (loByte x)) v]) ∧
    Mode.address .abs x s = (x, s) ∧
    ((Mode.address .abx x s).1 = x + s.X.setWidth 16 ∧
      ∃ v, (Mode.address .abx x s).2.trace = s.trace ++ [Access.rd (mkAddr (hiByte x) (loByte x + s.X)) v]) ∧
    ((Mode.address .aby x s).1 = x + s.Y.setWidth 16 ∧
      ∃ v, (Mode.address .aby x s).2.trace = s.trace ++ [Access.rd (mkAddr (hiByte x) (loByte x + s.Y)) v]) ∧
    (∃ v lo hi, (Mode.address .izx x s).1 = mkAddr hi lo ∧
      (Mode.address .izx x s).2.trace = s.trace ++ [Access.rd (mkAddr 0#8 (loByte x)) v,
        Access.rd (mkAddr 0#8 (loByte x + s.X)) lo, Access.rd (mkAddr 0#8 (loByte x + s.X + 1)) hi]) ∧
    (∃ v lo hi, (Mode.address .izy x s).1 = mkAddr hi lo + s.Y.setWidth 16 ∧
      (Mode.address .izy x s).2.trace = s.trace ++ [Access.rd (mkAddr 0#8 (loByte x)) lo,
        Access.rd (mkAddr 0#8 (loByte x + 1)) hi, Access.rd (mkAddr hi (lo + s.Y)) v]) ∧
    ∀ md : Mode, (md.address x s).2.mem = s.mem ∧ (md.address x s).2.A = s.A ∧ (md.address x s).2.X = s.X ∧
      (md.address x s).2.Y = s.Y ∧ (md.address x s).2.S = s.S ∧ (md.address x s).2.PC = s.PC ∧
      (md.address x s).2.P = s.P

/-- R63, R64, R65, R71, R75, R76, R331, R360, R362, R400: the devices on the bus. A byte written to a RAM cell is read
back at every address of that cell, and `ADDR_MASK` makes addresses the same; every other cell stays, and the access is
recorded with the address the CPU emits; a byte of RAM that nothing has loaded or written reads as the next free value
(log entry 4). Every access that reaches the cartridge is a read or a write of it, so that it switches banks, dummy
accesses too; a write to a delayed register of the chip is a `push` with that register's destination and delay (log
entry 16). A device outside the block has its state, and a trap of one is the observer's event or the halt of the step;
that the reason is then `invalidRead` of a read and `invalidWrite` of a write is the model's choice, log entry 30, and
that its source is `bus` is the model's choice, log entry 20. -/
def Obligations.RamBus : Prop :=
  (∀ (a b : Addr) (s : State), b &&& s.platform.addrMask = a &&& s.platform.addrMask → s.ramCell b = s.ramCell a) ∧
  (∀ (a : Addr) (v : Byte) (s : State) (n : Nat), s.ramCell a = some n →
    ∃ t, busWrite a v s = .ok t ∧ t.trace = s.trace ++ [Access.wr a v] ∧
      (∀ b, s.ramCell b = some n → busRead b t = (v, { t with trace := t.trace ++ [Access.rd b v] })) ∧
      (∀ k, k ≠ n → Memory.read t.mem k = Memory.read s.mem k) ∧
      t = { s with mem := t.mem, trace := t.trace }) ∧
  (∀ (a : Addr) (s : State), s.ramCell a ≠ none → ramByte s a = none →
    busRead a s = (Config.freeByte s.draws,
      { s with draws := s.draws + 1, trace := s.trace ++ [Access.rd a (Config.freeByte s.draws)] })) ∧
  (∀ (a : Addr) (s : State) (c : Cartridge), s.route a = .cart → s.cart = some c →
    (let r := c.read (s.busAddr a)
     busRead a s = (r.1, { s with cart := some r.2, trace := s.trace ++ [Access.rd a r.1] })) ∧
    ∀ v c', c.write (s.busAddr a) v = some c' →
      busWrite a v s = .ok { s with cart := some c', trace := s.trace ++ [Access.wr a v] }) ∧
  (∀ (a : Addr) (v : Byte) (s : State) (r : DelayedReg), s.route a = .chip → s.delayedAt a = some r →
    (∀ q, s.dq.push r.dest v r.delay = .ok q →
      busWrite a v s = .ok { s with dq := q, trace := s.trace ++ [Access.wr a v] }) ∧
    (∀ f, s.dq.push r.dest v r.delay = .error f → s.halt = false → busWrite a v s = .error f)) ∧
  (∀ (a : Addr) (s : State) (id : Nat), s.route a = .other id →
    (busRead a s).1 = (Config.deviceRead id (s.deviceState id) (s.busAddr a)).value ∧
    (match (Config.deviceRead id (s.deviceState id) (s.busAddr a)).after with
     | some n => (busRead a s).2.deviceState id = n ∧ (busRead a s).2.traps = s.traps ∧ (busRead a s).2.halt = s.halt ∧
       ∀ k, k ≠ id → (busRead a s).2.deviceState k = s.deviceState k
     | none => (busRead a s).2.devices = s.devices ∧
       (s.observer = true →
         (busRead a s).2.traps = s.traps ++ [trapEvent .invalidRead .bus] ∧ (busRead a s).2.halt = s.halt) ∧
       (s.observer = false → settle (.next (busRead a s).2) = .fault (.trapWithoutObserver .invalidRead))) ∧
    ∀ v, (match Config.deviceWrite id (s.deviceState id) (s.busAddr a) v with
     | some n => ∃ t, busWrite a v s = .ok t ∧ t.deviceState id = n ∧ t.traps = s.traps ∧
       ∀ k, k ≠ id → t.deviceState k = s.deviceState k
     | none => busWrite a v s = (if s.observer = true then
         .ok { s with traps := s.traps ++ [trapEvent .invalidWrite .bus], trace := s.trace ++ [Access.wr a v] }
       else .error (s.firstFault (.trapWithoutObserver .invalidWrite)))))

/-- R325, R360, R362, R363: a write to ROM stores nothing; with an observer it is one event, the instruction completes,
and a read-modify-write instruction makes two; with none the block halts. -/
def Obligations.RomWrites : Prop :=
  ∀ (a : Addr) (v : Byte) (s : State) (c : Cartridge), s.route a = .cart → s.cart = some c →
    (∀ l, c.scheme ≠ .multiLoad l) → c.switchesAt (s.busAddr a) = false →
    (let e : TrapEvent := { reason := .invalidWrite, source := .cartridge, message := Config.trapMessage .invalidWrite }
     (s.observer = true →
       busWrite a v s = .ok { s with traps := s.traps ++ [e], trace := s.trace ++ [Access.wr a v] } ∧
       (∃ t, exec (.staAbs a) s = .next t ∧ t.traps = s.traps ++ [e] ∧ t.mem = s.mem ∧ t.cart = s.cart) ∧
       (∃ t, exec (.incAbs a) s = .next t ∧ t.traps = s.traps ++ [e, e] ∧ t.mem = s.mem ∧
         t.cart.map Cartridge.rom = some c.rom)) ∧
     (s.observer = false → s.halt = false →
       busWrite a v s = .error (.trapWithoutObserver .invalidWrite) ∧
       exec (.staAbs a) s = .fault (.trapWithoutObserver .invalidWrite) ∧
       exec (.incAbs a) s = .fault (.trapWithoutObserver .invalidWrite)))

/-- R62, R326: `peek` returns what a read would return at that moment, and changes nothing; `poke` stores to RAM alone, and
raises nothing. That a `peek` of a hotspot returns the byte of the bank that a read would switch to is log entry 15, and
that `poke` does nothing at the chip, at a device outside the block and where no device answers is log entry 27. -/
def Obligations.PeekPoke : Prop :=
  ∀ (a : Addr) (v : Byte) (s : State),
    peek a s = (busRead a s).1 ∧
    (∀ n, s.ramCell a = some n → poke a v s = { s with mem := Memory.write s.mem n v } ∧ ramByte (poke a v s) a = some v) ∧
    (s.ramCell a = none → poke a v s = s)

/-- R323, R324: the fixed small ROM: the image right-aligned in the window, padded or cut at its low end; every address
reads modulo the window, with no effect; an empty image is a decode failure. -/
def Obligations.FixedRom : Prop :=
  ∀ (w : Nat) (pad : Byte) (image : List Byte) (draw : Nat), isWindow w = true →
    (image = [] → Scheme.build (.fixedRom w pad) image draw = none) ∧
    (image ≠ [] → ∃ c, Scheme.build (.fixedRom w pad) image draw = some c ∧ c.rom.length = w ∧ c.bank = .none ∧
      (∀ k, k < w → k < image.length → c.rom[w - 1 - k]? = image[image.length - 1 - k]?) ∧
      (∀ j, j < w - image.length → c.rom[j]? = some pad) ∧
      (∀ a : Addr, some (c.read a).1 = c.rom[a.toNat % w]? ∧ (c.read a).2 = c ∧ c.peek a = (c.read a).1))

/-- R328: a header of eight bytes verifies exactly when its sum is `0x55` modulo 256, and then changing any one byte makes
it fail. R327: the fields of the header of a load, `ML_HEADER` at its default. -/
def Obligations.HeaderCheck : Prop :=
  (∀ h : List Byte, h.length = 8 →
    (verifyHeader h = true ↔ (h.map BitVec.toNat).sum % 256 = 0x55) ∧
    (verifyHeader h = true → ∀ (i : Nat) (b : Byte), i < 8 → h[i]? ≠ some b → verifyHeader (h.set i b) = false)) ∧
  (∀ load : List Byte, 8448 ≤ load.length →
    (let h := HeaderLayout.standard.read load
     some (loByte h.start) = load[0x2000]? ∧ some (hiByte h.start) = load[0x2001]? ∧ some h.control = load[0x2002]? ∧
     some h.blockCount = load[0x2003]? ∧ some h.checksum = load[0x2004]? ∧ some h.loadId = load[0x2005]? ∧
     some (loByte h.speed) = load[0x2006]? ∧ some (hiByte h.speed) = load[0x2007]? ∧
     h.locations = (load.drop 0x2010).take 24 ∧ h.blockChecksums = (load.drop 0x2040).take 24 ∧
     HeaderLayout.standard.designated load = (load.drop 0x2000).take 8))

/-- R330, R331: hotspot bank switching. A read of a hotspot switches first where the scheme says so; a write of one
switches and stores nothing; a write elsewhere is a trap. That a read of a well-formed cartridge always gives a byte of
`rom` and never `oob` is the model's choice, log entry 29. -/
def Obligations.Hotspots : Prop :=
  ∀ (w banks : Nat) (hot : List (Nat × Nat)) (onRead : Bool) (ib : Option Nat) (oob : Byte) (rom : List Byte) (b : Nat)
    (a : Addr) (v : Byte),
    (let c : Cartridge := { scheme := .hotspot w banks hot onRead ib oob, rom, bank := .index b }
     let o := a.toNat % w
     c.wf = true →
       (∀ k, onRead = true → hotspotAt hot o = some k →
         (c.read a).2 = { c with bank := .index k } ∧ some (c.read a).1 = rom[k * w + o]?) ∧
       (onRead = false ∨ hotspotAt hot o = none → (c.read a).2 = c ∧ some (c.read a).1 = rom[b * w + o]?) ∧
       (∀ k, hotspotAt hot o = some k → k < banks ∧ c.write a v = some { c with bank := .index k }) ∧
       (hotspotAt hot o = none → c.write a v = none))

/-- R321, R322, R323, R327, R328, R330, R365. What `load` answers is a well-formed cartridge of the declared or detected
scheme, with no observer; a declared scheme is loaded exactly under the conditions of its variant, the header of every
load verifying among those of the multi-load scheme; `detect` goes by the image's length. That a window which is no power
of two, a hotspot tuple outside its ranges and a header layout outside its load are decode failures is log entry 18, and
which of several hotspot schemes of one length is taken is log entry 28, as is that a length which is both 1 to CART_WINDOW
and whole loads is the fixed small ROM. -/
def Obligations.LoadCartridge : Prop :=
  ∀ (image : List Byte) (s : State),
    (∀ scheme t, loadCartridge image scheme s = some t → t.observer = false ∧ t.mem = s.mem ∧ t.phase = s.phase ∧
      ∃ c, t.cart = some c ∧ c.wf = true ∧ (∀ sc, scheme = some sc → c.scheme = sc) ∧
        (scheme = none → detect s.platform image = some c.scheme)) ∧
    loadCartridge image none s = (detect s.platform image).bind (fun sc => loadCartridge image (some sc) s) ∧
    (image = [] → ∀ scheme, loadCartridge image scheme s = none) ∧
    (∀ w pad, (loadCartridge image (some (.fixedRom w pad)) s).isSome = true ↔ image ≠ [] ∧ isWindow w = true) ∧
    (∀ w banks hot onRead ib oob,
      ((loadCartridge image (some (.hotspot w banks hot onRead ib oob)) s).isSome = true ↔
        hotspotTuple w banks hot ib = true ∧ image.length = banks * w) ∧
      ∀ b t, ib = some b → loadCartridge image (some (.hotspot w banks hot onRead ib oob)) s = some t →
        t.cart.map Cartridge.bank = some (.index b)) ∧
    (∀ l : HeaderLayout, (loadCartridge image (some (.multiLoad l)) s).isSome = true ↔
      l.wf = true ∧ ∃ n, 0 < n ∧ image.length = n * l.loadSize ∧
        ∀ k, k < n → verifyHeader (l.designated (l.load k image)) = true) ∧
    (∀ p : Platform,
      (1 ≤ image.length → image.length ≤ p.cartWindow → detect p image = some (.fixedRom p.cartWindow p.cartPad)) ∧
      (p.cartWindow < image.length → image.length % p.mlHeader.loadSize = 0 →
        detect p image = some (.multiLoad p.mlHeader)) ∧
      (p.cartWindow < image.length → image.length % p.mlHeader.loadSize ≠ 0 →
        (∀ sc, detect p image = some sc → sc ∈ p.hotspots ∧ sc.imageLength = some image.length) ∧
        (detect p image = none ↔ ∀ sc ∈ p.hotspots, sc.imageLength ≠ some image.length)))

/-! ## The delay queue -/

/-- R308, R309, R304, R310: a pair pushed with a delay is handed to the handler by exactly the `execute` numbered
`delay + 1` after it, once, and by no other, whatever other operations on the queue fall between, as long as none of
them pushes to its destination. -/
def Obligations.QueueLatency : Prop :=
  ∀ (q t : DelayQueue) (d : Nat) (v : Byte) (delay : Nat), q.Inv → q.push d v delay = .ok t →
    ∀ ops : List QueueOp, (∀ d' v' n', QueueOp.push d' v' n' ∈ ops → d' ≠ d) →
      ∀ log u, runQueue ops t = .ok (log, u) →
        ∀ k calls, log[k]? = some calls → calls.filter (fun p => p.1 == d) = if k = delay then [(d, v)] else []

/-- R302, R303, R304, R305: `push`: the delay bound first, the capacity after the removal of the stale pair; otherwise the
pair goes to the end of its slot, every other pair keeps its slot and its order, and the stale pair is gone. That a
destination outside `DQ_DEST` is a configuration error is log entry 12. -/
def Obligations.QueuePush : Prop :=
  ∀ (q : DelayQueue) (d : Nat) (v : Byte) (delay : Nat), q.Inv →
    (let j := (q.next + delay) % q.depth
     let kept := fun i => (q.slot i).filter (fun p => p.1 != d)
     (q.depth ≤ delay → q.push d v delay = .error .configError) ∧
     (d ∉ q.dests → q.push d v delay = .error .configError) ∧
     (delay < q.depth → d ∈ q.dests → (kept j).length = q.capacity → q.push d v delay = .error .queueOverflow) ∧
     (delay < q.depth → d ∈ q.dests → (kept j).length < q.capacity →
       ∃ t, q.push d v delay = .ok t ∧ t.next = q.next ∧ tableGet t.whereIs d = some j ∧
         (∀ d', d' ≠ d → tableGet t.whereIs d' = tableGet q.whereIs d') ∧
         ∀ i, i < q.depth → t.slot i = if i = j then kept i ++ [(d, v)] else kept i))

/-- R43, R301, R306: a new queue meets the invariants, and each operation keeps them; `new` fails exactly for a depth or a
capacity of 0; `execute` empties the slot in force and moves on. -/
def Obligations.QueueInvariant : Prop :=
  (∀ n k dests, (DelayQueue.new n k dests = none ↔ n = 0 ∨ k = 0) ∧
    ∀ q, DelayQueue.new n k dests = some q → q.Inv ∧ q.next = 0 ∧ q.whereIs = []) ∧
  (∀ (q t : DelayQueue) (d : Nat) (v : Byte) (delay : Nat), q.Inv → q.push d v delay = .ok t → t.Inv) ∧
  (∀ q : DelayQueue, q.Inv → q.execute.2.Inv ∧ q.execute.1 = q.slot q.next ∧ q.execute.2.slot q.next = [] ∧
    q.execute.2.next = (q.next + 1) % q.depth ∧ ∀ p ∈ q.execute.1, tableGet q.execute.2.whereIs p.1 = none)

/-- R369, R312, R78, with a chip that pushes nothing of its own: with `DRIVER_ORDER` at its default a tick is one clock
step and then `CHIP_RATIO` executes; with the CPU last it is the executes and then the clock step; and only the queue is
changed by the executes. -/
def Obligations.Tick : Prop :=
  ∀ s t : State, s.phase ≠ .fatal →
    (s.platform.driverOrder = { before := [.cpu], each := [.queue, .chip], after := [] } → clockStep s = .next t →
      tick (fun _ => []) s = .next ((executes s.platform.chipRatio t.dq).1,
        { t with dq := (executes s.platform.chipRatio t.dq).2 })) ∧
    (s.platform.driverOrder = { before := [], each := [.queue, .chip], after := [.cpu] } →
      clockStep { s with dq := (executes s.platform.chipRatio s.dq).2 } = .next t →
      tick (fun _ => []) s = .next ((executes s.platform.chipRatio s.dq).1, t))

/-! ## Whole-machine rules -/

/-- R64, R43 to R45: every step keeps memory canonical, the queue's invariants, the cartridge well formed and the table of
device states in order, and no halt is under way after it. -/
def Obligations.StepKeepsInvariant : Prop :=
  ∀ s t : State, s.Inv → step s = .next t → t.Inv

/-- The invariant holds after reset and at power-on. -/
def Obligations.ResetHasInvariant : Prop :=
  State.reset.Inv ∧ State.powerOn.Inv

/-- R12, R37, R44, R46, R47, R300: no step changes the platform's parameters, the policy, the IRQ line, the observer, the
queue's parameters, or the scheme and the ROM of the cartridge; and no step raises a request. R361: no step and no clock
step raises a trap whose reason is `decodeFailure`, neither as the reason of a halt nor as an event. -/
def Obligations.StepKeepsConstants : Prop :=
  (∀ s : State, step s ≠ .fault (.trapWithoutObserver .decodeFailure) ∧
    clockStep s ≠ .fault (.trapWithoutObserver .decodeFailure)) ∧
  (∀ s t : State, step s = .next t ∨ clockStep s = .next t → (∀ e ∈ s.traps, e.reason ≠ .decodeFailure) →
    ∀ e ∈ t.traps, e.reason ≠ .decodeFailure) ∧
  ∀ s t : State, step s = .next t →
    t.platform = s.platform ∧ t.undoc = s.undoc ∧ t.irqLine = s.irqLine ∧ t.observer = s.observer ∧
    t.dq.depth = s.dq.depth ∧ t.dq.capacity = s.dq.capacity ∧ t.dq.dests = s.dq.dests ∧ t.dq.next = s.dq.next ∧
    t.cart.map (fun c => (c.scheme, c.rom)) = s.cart.map (fun c => (c.scheme, c.rom)) ∧
    (t.nmiPending = true → s.nmiPending = true) ∧ (t.resetPending = true → s.resetPending = true)

/-- R20 to R24: which instructions may write each register; every other leaves it. `PC` is taken after the fetch of the
instruction's bytes. -/
def Obligations.RegistersWritten : Prop :=
  ∀ (i : Instr) (s t : State), exec i s = .next t →
    (opcode i ∉ writesA → t.A = s.A) ∧ (opcode i ∉ writesX → t.X = s.X) ∧ (opcode i ∉ writesY → t.Y = s.Y) ∧
    (opcode i ∉ writesS → t.S = s.S) ∧ (opcode i ∉ writesPC → t.PC = s.PC)

/-- R26: which instructions may write each flag; every other leaves it. -/
def Obligations.FlagsWritten : Prop :=
  ∀ (i : Instr) (s t : State), exec i s = .next t →
    (opcode i ∉ writesNZ → t.P.N = s.P.N ∧ t.P.Z = s.P.Z) ∧ (opcode i ∉ writesV → t.P.V = s.P.V) ∧
    (opcode i ∉ writesD → t.P.D = s.P.D) ∧ (opcode i ∉ writesI → t.P.I = s.P.I) ∧
    (opcode i ∉ writesC → t.P.C = s.P.C)

/-- R131, R132, R133, R23: an instruction that stores nothing leaves every byte of memory and the queue, and, with no
device outside the block on the bus, the observer's events and those devices' states; a store or a read-modify-write
leaves every cell but the one at its effective address; a push, `JSR` and `BRK` every cell but those of their stack
slots. -/
def Obligations.MemoryFrame : Prop :=
  (∀ (i : Instr) (s t : State), exec i s = .next t → opcode i ∉ storesByte →
    (∀ n, Memory.read t.mem n = Memory.read s.mem n) ∧ t.dq = s.dq ∧
    (s.platform.regions.all (fun r => r.dev.own) = true → t.traps = s.traps ∧ t.devices = s.devices)) ∧
  (∀ e ∈ staForms ++ stxForms ++ styForms ++ saxForms ++ incForms ++ decForms ++ aslForms ++ lsrForms ++ rolForms ++
      rorForms ++ sloForms ++ rlaForms ++ sreForms ++ rraForms ++ dcpForms ++ iscForms,
    ∀ (x : Addr) (s t : State), exec (e.instr x) s = .next t →
      ∀ n, s.ramCell (e.mode.address x s).1 ≠ some n → Memory.read t.mem n = Memory.read s.mem n) ∧
  (∀ s t : State, exec .pha s = .next t ∨ exec .php s = .next t →
    ∀ n, s.ramCell (stackAddr s.S) ≠ some n → Memory.read t.mem n = Memory.read s.mem n) ∧
  (∀ (a : Addr) (s t : State), exec (.jsr a) s = .next t →
    ∀ n, s.ramCell (stackAddr s.S) ≠ some n → s.ramCell (stackAddr (s.S - 1)) ≠ some n →
      Memory.read t.mem n = Memory.read s.mem n) ∧
  (∀ s t : State, exec .brk s = .next t →
    ∀ n, s.ramCell (stackAddr s.S) ≠ some n → s.ramCell (stackAddr (s.S - 1)) ≠ some n →
      s.ramCell (stackAddr (s.S - 2)) ≠ some n → Memory.read t.mem n = Memory.read s.mem n)
end

