-- ==== Sys2Proof/Laws/Table.lean ====
section
/-! SUPPORT. The laws of tables with rising keys, and of memory, which is one: read after write, and that every
operation keeps the canonical form. -/

namespace Sys2Proof.Machine

@[simp] theorem tableGet_set_self {α : Type} (t : List (Nat × α)) (a : Nat) (v : α) :
    tableGet (tableSet t a v) a = some v := by
  induction t with
  | nil => simp [tableSet, tableGet]
  | cons c t ih =>
    obtain ⟨k, w⟩ := c
    unfold tableSet
    split
    · simp [tableGet]
    · split
      · simp [tableGet]
      · simp_all [tableGet]

theorem tableGet_set_other {α : Type} (t : List (Nat × α)) {a b : Nat} (v : α) (h : b ≠ a) :
    tableGet (tableSet t a v) b = tableGet t b := by
  induction t with
  | nil => simp [tableSet, tableGet, h]
  | cons c t ih =>
    obtain ⟨k, w⟩ := c
    unfold tableSet
    split
    · simp [tableGet, h]
    · split
      · rename_i hk
        subst hk
        simp [tableGet, h]
      · simp [tableGet, ih]

@[simp] theorem tableGet_erase_self {α : Type} (t : List (Nat × α)) (a : Nat) : tableGet (tableErase t a) a = none := by
  induction t with
  | nil => rfl
  | cons c t ih =>
    obtain ⟨k, w⟩ := c
    unfold tableErase
    split
    · exact ih
    · simp_all [tableGet]

theorem tableGet_erase_other {α : Type} (t : List (Nat × α)) {a b : Nat} (h : b ≠ a) :
    tableGet (tableErase t a) b = tableGet t b := by
  induction t with
  | nil => rfl
  | cons c t ih =>
    obtain ⟨k, w⟩ := c
    unfold tableErase
    split
    · rename_i hk
      subst hk
      simp [tableGet, h, ih]
    · simp [tableGet, ih]

/-- The form with its head's bound taken out: rising, and every key above the head's. -/
theorem tableRising_cons {α : Type} (c : Nat × α) (t : List (Nat × α)) :
    tableRising (c :: t) = true ↔ (∀ d ∈ t, c.1 < d.1) ∧ tableRising t = true := by
  induction t generalizing c with
  | nil => simp [tableRising]
  | cons d t ih =>
    obtain ⟨k, v⟩ := c
    obtain ⟨l, w⟩ := d
    simp only [tableRising, Bool.and_eq_true, decide_eq_true_eq, List.mem_cons, forall_eq_or_imp]
    constructor
    · rintro ⟨h1, h2⟩
      exact ⟨⟨h1, fun e he => Nat.lt_trans h1 (((ih (l, w)).mp h2).1 e he)⟩, h2⟩
    · rintro ⟨⟨h1, _⟩, h2⟩
      exact ⟨h1, h2⟩

theorem mem_tableSet {α : Type} {t : List (Nat × α)} {a : Nat} {v : α} {d : Nat × α} (h : d ∈ tableSet t a v) :
    d = (a, v) ∨ d ∈ t := by
  induction t with
  | nil => simpa [tableSet] using h
  | cons c t ih =>
    obtain ⟨k, w⟩ := c
    unfold tableSet at h
    split at h
    · simpa using h
    · split at h
      · rcases List.mem_cons.mp h with h | h
        · exact .inl h
        · exact .inr (List.mem_cons_of_mem _ h)
      · rcases List.mem_cons.mp h with h | h
        · exact .inr (h ▸ List.mem_cons_self)
        · exact (ih h).imp id (List.mem_cons_of_mem _)

theorem mem_tableErase {α : Type} {t : List (Nat × α)} {a : Nat} {d : Nat × α} (h : d ∈ tableErase t a) :
    d ∈ t ∧ d.1 ≠ a := by
  induction t with
  | nil => simp [tableErase] at h
  | cons c t ih =>
    obtain ⟨k, w⟩ := c
    unfold tableErase at h
    split at h
    · exact ⟨List.mem_cons_of_mem _ (ih h).1, (ih h).2⟩
    · rename_i hk
      rcases List.mem_cons.mp h with h | h
      · subst h; exact ⟨List.mem_cons_self, fun e => hk e.symm⟩
      · exact ⟨List.mem_cons_of_mem _ (ih h).1, (ih h).2⟩

/-- Storing keeps the keys rising. -/
theorem tableRising_set {α : Type} {t : List (Nat × α)} (a : Nat) (v : α) (h : tableRising t = true) :
    tableRising (tableSet t a v) = true := by
  induction t with
  | nil => rfl
  | cons c t ih =>
    obtain ⟨k, w⟩ := c
    have hc := (tableRising_cons _ _).mp h
    unfold tableSet
    split
    · rename_i hk
      refine (tableRising_cons _ _).mpr ⟨fun d hd => ?_, h⟩
      rcases List.mem_cons.mp hd with hd | hd
      · subst hd; exact hk
      · exact Nat.lt_trans hk (hc.1 d hd)
    · split
      · rename_i hk
        subst hk
        exact (tableRising_cons _ _).mpr hc
      · rename_i h1 h2
        refine (tableRising_cons _ _).mpr ⟨fun d hd => ?_, ih hc.2⟩
        rcases mem_tableSet hd with hd | hd
        · subst hd; exact Nat.lt_of_le_of_ne (Nat.le_of_not_lt h1) (fun e => h2 e.symm)
        · exact hc.1 d hd

/-- Removing keeps the keys rising. -/
theorem tableRising_erase {α : Type} {t : List (Nat × α)} (a : Nat) (h : tableRising t = true) :
    tableRising (tableErase t a) = true := by
  induction t with
  | nil => rfl
  | cons c t ih =>
    obtain ⟨k, w⟩ := c
    have hc := (tableRising_cons _ _).mp h
    unfold tableErase
    split
    · exact ih hc.2
    · exact (tableRising_cons _ _).mpr ⟨fun d hd => hc.1 d (mem_tableErase hd).1, ih hc.2⟩

/-- In a table with rising keys, a pair listed is what its key reads as. -/
theorem tableGet_of_mem {α : Type} {t : List (Nat × α)} (h : tableRising t = true) {c : Nat × α} (hc : c ∈ t) :
    tableGet t c.1 = some c.2 := by
  induction t with
  | nil => cases hc
  | cons d t ih =>
    obtain ⟨k, w⟩ := d
    have hd := (tableRising_cons _ _).mp h
    rcases List.mem_cons.mp hc with hc | hc
    · subst hc; simp [tableGet]
    · have := hd.1 c hc
      simp only [tableGet]
      rw [if_neg (by dsimp at this; omega)]
      exact ih hd.2 hc

/-- What a key reads as is listed. -/
theorem mem_of_tableGet {α : Type} {t : List (Nat × α)} {a : Nat} {v : α} (h : tableGet t a = some v) : (a, v) ∈ t := by
  induction t with
  | nil => cases h
  | cons d t ih =>
    obtain ⟨k, w⟩ := d
    unfold tableGet at h
    split at h
    · rename_i hk
      cases h
      subst hk
      exact List.mem_cons_self
    · exact List.mem_cons_of_mem _ (ih h)

/-- A store at an address of the address space keeps memory canonical. -/
theorem Memory.wf_write {m : Memory} {a : Nat} (v : Byte) (ha : a < 65536) (h : m.wf = true) :
    (Memory.write m a v).wf = true := by
  unfold Memory.wf at *
  unfold Memory.write
  simp only [Bool.and_eq_true, List.all_eq_true, decide_eq_true_eq] at *
  refine ⟨tableRising_set a v h.1, fun c hc => ?_⟩
  rcases mem_tableSet hc with hc | hc
  · subst hc; exact ha
  · exact h.2 c hc

@[simp] theorem Memory.read_write_self (m : Memory) (a : Nat) (v : Byte) :
    Memory.read (Memory.write m a v) a = some v := tableGet_set_self m a v

theorem Memory.read_write_other (m : Memory) {a b : Nat} (v : Byte) (h : b ≠ a) :
    Memory.read (Memory.write m a v) b = Memory.read m b := tableGet_set_other m v h

end Sys2Proof.Machine
end

