-- ==== Sys2Proof/Laws/Cartridge.lean ====
section
/-! SUPPORT. What a bus access can do to a cartridge, and that it stays well formed (R44 to R46, R330). -/

namespace Sys2Proof.Machine

/-- A read of a cartridge keeps its scheme and its ROM (R44, R46). -/
theorem Cartridge.read_keeps (a : Addr) (c : Cartridge) :
    (c.read a).2.scheme = c.scheme ∧ (c.read a).2.rom = c.rom := by
  unfold Cartridge.read
  cases h : c.scheme <;> simp [h]

/-- A write to a cartridge keeps its scheme and its ROM (R44, R46, R325). -/
theorem Cartridge.write_keeps {a : Addr} {v : Byte} {c c' : Cartridge} (h : c.write a v = some c') :
    c'.scheme = c.scheme ∧ c'.rom = c.rom := by
  unfold Cartridge.write at h
  cases hs : c.scheme <;> simp only [hs, Option.map_eq_some_iff, reduceCtorEq] at h
  · obtain ⟨b, _, rfl⟩ := h; simp
  · obtain ⟨b, _, rfl⟩ := h; simp

/-- A hotspot of a legal tuple names a bank in range (R330). -/
theorem hotspotAt_lt {w banks : Nat} {hot : List (Nat × Nat)} {ib : Option Nat}
    (h : hotspotTuple w banks hot ib = true) {o b : Nat} (hb : hotspotAt hot o = some b) : b < banks := by
  unfold hotspotTuple at h
  simp only [Bool.and_eq_true, List.all_eq_true, decide_eq_true_eq] at h
  exact (h.1.2 _ (mem_of_tableGet hb)).2

/-- A hotspot cartridge with another bank in range. -/
theorem Cartridge.wf_index {w banks : Nat} {hot : List (Nat × Nat)} {r : Bool} {ib : Option Nat} {oob : Byte}
    {rom : List Byte} {k : Bank} (h : Cartridge.wf ⟨.hotspot w banks hot r ib oob, rom, k⟩ = true) {b : Nat}
    (hb : b < banks) : Cartridge.wf ⟨.hotspot w banks hot r ib oob, rom, .index b⟩ = true := by
  simp only [Cartridge.wf, Bool.and_eq_true] at h ⊢
  exact ⟨⟨h.1.1, by simp [Cartridge.bankIndex]⟩, decide_eq_true hb⟩

/-- A hotspot of a well-formed cartridge names a bank in range. -/
theorem Cartridge.hotspot_lt {w banks : Nat} {hot : List (Nat × Nat)} {r : Bool} {ib : Option Nat} {oob : Byte}
    {rom : List Byte} {k : Bank} (h : Cartridge.wf ⟨.hotspot w banks hot r ib oob, rom, k⟩ = true) {o b : Nat}
    (hb : hotspotAt hot o = some b) : b < banks := by
  simp only [Cartridge.wf, Bool.and_eq_true] at h
  exact hotspotAt_lt h.1.1.1 hb

/-- A read keeps a cartridge well formed. -/
theorem Cartridge.wf_read (a : Addr) {c : Cartridge} (h : c.wf = true) : (c.read a).2.wf = true := by
  obtain ⟨scheme, rom, bank⟩ := c
  cases scheme with
  | fixedRom w p => exact h
  | hotspot w banks hot r ib oob =>
    refine Cartridge.wf_index h ?_
    have hi : Cartridge.bankIndex ⟨.hotspot w banks hot r ib oob, rom, bank⟩ < banks := by
      simp only [Cartridge.wf, Bool.and_eq_true, decide_eq_true_eq] at h
      exact h.2
    cases r with
    | false => exact hi
    | true =>
      cases hh : hotspotAt hot (a.toNat % w) with
      | none => simpa [hh] using hi
      | some b => simpa [hh] using Cartridge.hotspot_lt h hh
  | multiLoad => simp [Cartridge.read, Cartridge.wf, Cartridge.multiBank]

/-- A write that is no trap keeps a cartridge well formed. -/
theorem Cartridge.wf_write {a : Addr} {v : Byte} {c c' : Cartridge} (hw : c.write a v = some c') (h : c.wf = true) :
    c'.wf = true := by
  obtain ⟨scheme, rom, bank⟩ := c
  cases scheme with
  | fixedRom w p => cases hw
  | hotspot w banks hot r ib oob =>
    simp only [Cartridge.write, Option.map_eq_some_iff] at hw
    obtain ⟨b, hb, rfl⟩ := hw
    exact Cartridge.wf_index h (Cartridge.hotspot_lt h hb)
  | multiLoad =>
    simp only [Cartridge.write, Option.map_eq_some_iff] at hw
    obtain ⟨b, _, rfl⟩ := hw
    simp [Cartridge.wf, Cartridge.multiBank]

end Sys2Proof.Machine
end

