-- ==== Sys2Proof/Laws/State.lean ====
section
/-! SUPPORT. One lemma per field for each named update of the state, so that no proof unfolds a record update. -/

namespace Sys2Proof.Machine

/-! ## beginSequence -/

@[simp] theorem beginSequence_A (s : State) : (s.beginSequence).A = s.A := rfl
@[simp] theorem beginSequence_X (s : State) : (s.beginSequence).X = s.X := rfl
@[simp] theorem beginSequence_Y (s : State) : (s.beginSequence).Y = s.Y := rfl
@[simp] theorem beginSequence_S (s : State) : (s.beginSequence).S = s.S := rfl
@[simp] theorem beginSequence_PC (s : State) : (s.beginSequence).PC = s.PC := rfl
@[simp] theorem beginSequence_P (s : State) : (s.beginSequence).P = s.P := rfl
@[simp] theorem beginSequence_phase (s : State) : (s.beginSequence).phase = s.phase := rfl
@[simp] theorem beginSequence_boundary (s : State) : (s.beginSequence).boundary = s.boundary := rfl
@[simp] theorem beginSequence_irqLine (s : State) : (s.beginSequence).irqLine = s.irqLine := rfl
@[simp] theorem beginSequence_nmiPending (s : State) : (s.beginSequence).nmiPending = s.nmiPending := rfl
@[simp] theorem beginSequence_resetPending (s : State) : (s.beginSequence).resetPending = s.resetPending := rfl
@[simp] theorem beginSequence_dq (s : State) : (s.beginSequence).dq = s.dq := rfl
@[simp] theorem beginSequence_cart (s : State) : (s.beginSequence).cart = s.cart := rfl
@[simp] theorem beginSequence_observer (s : State) : (s.beginSequence).observer = s.observer := rfl
@[simp] theorem beginSequence_mem (s : State) : (s.beginSequence).mem = s.mem := rfl
@[simp] theorem beginSequence_devices (s : State) : (s.beginSequence).devices = s.devices := rfl
@[simp] theorem beginSequence_platform (s : State) : (s.beginSequence).platform = s.platform := rfl
@[simp] theorem beginSequence_undoc (s : State) : (s.beginSequence).undoc = s.undoc := rfl
@[simp] theorem beginSequence_draws (s : State) : (s.beginSequence).draws = s.draws := rfl
@[simp] theorem beginSequence_trace (s : State) : (s.beginSequence).trace = [] := rfl
@[simp] theorem beginSequence_traps (s : State) : (s.beginSequence).traps = [] := rfl
@[simp] theorem beginSequence_halt (s : State) : (s.beginSequence).halt = s.halt := rfl

/-! ## atBoundary -/

@[simp] theorem atBoundary_A (s : State) : (atBoundary s).A = s.A := rfl
@[simp] theorem atBoundary_X (s : State) : (atBoundary s).X = s.X := rfl
@[simp] theorem atBoundary_Y (s : State) : (atBoundary s).Y = s.Y := rfl
@[simp] theorem atBoundary_S (s : State) : (atBoundary s).S = s.S := rfl
@[simp] theorem atBoundary_PC (s : State) : (atBoundary s).PC = s.PC := rfl
@[simp] theorem atBoundary_P (s : State) : (atBoundary s).P = s.P := rfl
@[simp] theorem atBoundary_phase (s : State) : (atBoundary s).phase = .idle := rfl
@[simp] theorem atBoundary_boundary (s : State) : (atBoundary s).boundary = true := rfl
@[simp] theorem atBoundary_irqLine (s : State) : (atBoundary s).irqLine = s.irqLine := rfl
@[simp] theorem atBoundary_nmiPending (s : State) : (atBoundary s).nmiPending = s.nmiPending := rfl
@[simp] theorem atBoundary_resetPending (s : State) : (atBoundary s).resetPending = s.resetPending := rfl
@[simp] theorem atBoundary_dq (s : State) : (atBoundary s).dq = s.dq := rfl
@[simp] theorem atBoundary_cart (s : State) : (atBoundary s).cart = s.cart := rfl
@[simp] theorem atBoundary_observer (s : State) : (atBoundary s).observer = s.observer := rfl
@[simp] theorem atBoundary_mem (s : State) : (atBoundary s).mem = s.mem := rfl
@[simp] theorem atBoundary_devices (s : State) : (atBoundary s).devices = s.devices := rfl
@[simp] theorem atBoundary_platform (s : State) : (atBoundary s).platform = s.platform := rfl
@[simp] theorem atBoundary_undoc (s : State) : (atBoundary s).undoc = s.undoc := rfl
@[simp] theorem atBoundary_draws (s : State) : (atBoundary s).draws = s.draws := rfl
@[simp] theorem atBoundary_trace (s : State) : (atBoundary s).trace = s.trace := rfl
@[simp] theorem atBoundary_traps (s : State) : (atBoundary s).traps = s.traps := rfl
@[simp] theorem atBoundary_halt (s : State) : (atBoundary s).halt = s.halt := rfl

/-! ## setIrq -/

@[simp] theorem setIrq_A (b : Bool) (s : State) : (setIrq b s).A = s.A := rfl
@[simp] theorem setIrq_X (b : Bool) (s : State) : (setIrq b s).X = s.X := rfl
@[simp] theorem setIrq_Y (b : Bool) (s : State) : (setIrq b s).Y = s.Y := rfl
@[simp] theorem setIrq_S (b : Bool) (s : State) : (setIrq b s).S = s.S := rfl
@[simp] theorem setIrq_PC (b : Bool) (s : State) : (setIrq b s).PC = s.PC := rfl
@[simp] theorem setIrq_P (b : Bool) (s : State) : (setIrq b s).P = s.P := rfl
@[simp] theorem setIrq_phase (b : Bool) (s : State) : (setIrq b s).phase = s.phase := rfl
@[simp] theorem setIrq_boundary (b : Bool) (s : State) : (setIrq b s).boundary = s.boundary := rfl
@[simp] theorem setIrq_irqLine (b : Bool) (s : State) : (setIrq b s).irqLine = b := rfl
@[simp] theorem setIrq_nmiPending (b : Bool) (s : State) : (setIrq b s).nmiPending = s.nmiPending := rfl
@[simp] theorem setIrq_resetPending (b : Bool) (s : State) : (setIrq b s).resetPending = s.resetPending := rfl
@[simp] theorem setIrq_dq (b : Bool) (s : State) : (setIrq b s).dq = s.dq := rfl
@[simp] theorem setIrq_cart (b : Bool) (s : State) : (setIrq b s).cart = s.cart := rfl
@[simp] theorem setIrq_observer (b : Bool) (s : State) : (setIrq b s).observer = s.observer := rfl
@[simp] theorem setIrq_mem (b : Bool) (s : State) : (setIrq b s).mem = s.mem := rfl
@[simp] theorem setIrq_devices (b : Bool) (s : State) : (setIrq b s).devices = s.devices := rfl
@[simp] theorem setIrq_platform (b : Bool) (s : State) : (setIrq b s).platform = s.platform := rfl
@[simp] theorem setIrq_undoc (b : Bool) (s : State) : (setIrq b s).undoc = s.undoc := rfl
@[simp] theorem setIrq_draws (b : Bool) (s : State) : (setIrq b s).draws = s.draws := rfl
@[simp] theorem setIrq_trace (b : Bool) (s : State) : (setIrq b s).trace = s.trace := rfl
@[simp] theorem setIrq_traps (b : Bool) (s : State) : (setIrq b s).traps = s.traps := rfl
@[simp] theorem setIrq_halt (b : Bool) (s : State) : (setIrq b s).halt = s.halt := rfl

/-! ## nmiEdge -/

@[simp] theorem nmiEdge_A (s : State) : (nmiEdge s).A = s.A := rfl
@[simp] theorem nmiEdge_X (s : State) : (nmiEdge s).X = s.X := rfl
@[simp] theorem nmiEdge_Y (s : State) : (nmiEdge s).Y = s.Y := rfl
@[simp] theorem nmiEdge_S (s : State) : (nmiEdge s).S = s.S := rfl
@[simp] theorem nmiEdge_PC (s : State) : (nmiEdge s).PC = s.PC := rfl
@[simp] theorem nmiEdge_P (s : State) : (nmiEdge s).P = s.P := rfl
@[simp] theorem nmiEdge_phase (s : State) : (nmiEdge s).phase = s.phase := rfl
@[simp] theorem nmiEdge_boundary (s : State) : (nmiEdge s).boundary = s.boundary := rfl
@[simp] theorem nmiEdge_irqLine (s : State) : (nmiEdge s).irqLine = s.irqLine := rfl
@[simp] theorem nmiEdge_nmiPending (s : State) : (nmiEdge s).nmiPending = true := rfl
@[simp] theorem nmiEdge_resetPending (s : State) : (nmiEdge s).resetPending = s.resetPending := rfl
@[simp] theorem nmiEdge_dq (s : State) : (nmiEdge s).dq = s.dq := rfl
@[simp] theorem nmiEdge_cart (s : State) : (nmiEdge s).cart = s.cart := rfl
@[simp] theorem nmiEdge_observer (s : State) : (nmiEdge s).observer = s.observer := rfl
@[simp] theorem nmiEdge_mem (s : State) : (nmiEdge s).mem = s.mem := rfl
@[simp] theorem nmiEdge_devices (s : State) : (nmiEdge s).devices = s.devices := rfl
@[simp] theorem nmiEdge_platform (s : State) : (nmiEdge s).platform = s.platform := rfl
@[simp] theorem nmiEdge_undoc (s : State) : (nmiEdge s).undoc = s.undoc := rfl
@[simp] theorem nmiEdge_draws (s : State) : (nmiEdge s).draws = s.draws := rfl
@[simp] theorem nmiEdge_trace (s : State) : (nmiEdge s).trace = s.trace := rfl
@[simp] theorem nmiEdge_traps (s : State) : (nmiEdge s).traps = s.traps := rfl
@[simp] theorem nmiEdge_halt (s : State) : (nmiEdge s).halt = s.halt := rfl

/-! ## haltMark -/

@[simp] theorem haltMark_A (s : State) : (haltMark s).A = s.A := rfl
@[simp] theorem haltMark_X (s : State) : (haltMark s).X = s.X := rfl
@[simp] theorem haltMark_Y (s : State) : (haltMark s).Y = s.Y := rfl
@[simp] theorem haltMark_S (s : State) : (haltMark s).S = s.S := rfl
@[simp] theorem haltMark_PC (s : State) : (haltMark s).PC = s.PC := rfl
@[simp] theorem haltMark_P (s : State) : (haltMark s).P = s.P := rfl
@[simp] theorem haltMark_phase (s : State) : (haltMark s).phase = .fatal := rfl
@[simp] theorem haltMark_boundary (s : State) : (haltMark s).boundary = false := rfl
@[simp] theorem haltMark_irqLine (s : State) : (haltMark s).irqLine = s.irqLine := rfl
@[simp] theorem haltMark_nmiPending (s : State) : (haltMark s).nmiPending = s.nmiPending := rfl
@[simp] theorem haltMark_resetPending (s : State) : (haltMark s).resetPending = s.resetPending := rfl
@[simp] theorem haltMark_dq (s : State) : (haltMark s).dq = s.dq := rfl
@[simp] theorem haltMark_cart (s : State) : (haltMark s).cart = s.cart := rfl
@[simp] theorem haltMark_observer (s : State) : (haltMark s).observer = s.observer := rfl
@[simp] theorem haltMark_mem (s : State) : (haltMark s).mem = s.mem := rfl
@[simp] theorem haltMark_devices (s : State) : (haltMark s).devices = s.devices := rfl
@[simp] theorem haltMark_platform (s : State) : (haltMark s).platform = s.platform := rfl
@[simp] theorem haltMark_undoc (s : State) : (haltMark s).undoc = s.undoc := rfl
@[simp] theorem haltMark_draws (s : State) : (haltMark s).draws = s.draws := rfl
@[simp] theorem haltMark_trace (s : State) : (haltMark s).trace = s.trace := rfl
@[simp] theorem haltMark_traps (s : State) : (haltMark s).traps = s.traps := rfl
@[simp] theorem haltMark_halt (s : State) : (haltMark s).halt = s.halt := rfl

/-! ## registerObserver -/

@[simp] theorem registerObserver_A (s : State) : (registerObserver s).A = s.A := rfl
@[simp] theorem registerObserver_X (s : State) : (registerObserver s).X = s.X := rfl
@[simp] theorem registerObserver_Y (s : State) : (registerObserver s).Y = s.Y := rfl
@[simp] theorem registerObserver_S (s : State) : (registerObserver s).S = s.S := rfl
@[simp] theorem registerObserver_PC (s : State) : (registerObserver s).PC = s.PC := rfl
@[simp] theorem registerObserver_P (s : State) : (registerObserver s).P = s.P := rfl
@[simp] theorem registerObserver_phase (s : State) : (registerObserver s).phase = s.phase := rfl
@[simp] theorem registerObserver_boundary (s : State) : (registerObserver s).boundary = s.boundary := rfl
@[simp] theorem registerObserver_irqLine (s : State) : (registerObserver s).irqLine = s.irqLine := rfl
@[simp] theorem registerObserver_nmiPending (s : State) : (registerObserver s).nmiPending = s.nmiPending := rfl
@[simp] theorem registerObserver_resetPending (s : State) : (registerObserver s).resetPending = s.resetPending := rfl
@[simp] theorem registerObserver_dq (s : State) : (registerObserver s).dq = s.dq := rfl
@[simp] theorem registerObserver_cart (s : State) : (registerObserver s).cart = s.cart := rfl
@[simp] theorem registerObserver_observer (s : State) : (registerObserver s).observer = true := rfl
@[simp] theorem registerObserver_mem (s : State) : (registerObserver s).mem = s.mem := rfl
@[simp] theorem registerObserver_devices (s : State) : (registerObserver s).devices = s.devices := rfl
@[simp] theorem registerObserver_platform (s : State) : (registerObserver s).platform = s.platform := rfl
@[simp] theorem registerObserver_undoc (s : State) : (registerObserver s).undoc = s.undoc := rfl
@[simp] theorem registerObserver_draws (s : State) : (registerObserver s).draws = s.draws := rfl
@[simp] theorem registerObserver_trace (s : State) : (registerObserver s).trace = s.trace := rfl
@[simp] theorem registerObserver_traps (s : State) : (registerObserver s).traps = s.traps := rfl
@[simp] theorem registerObserver_halt (s : State) : (registerObserver s).halt = s.halt := rfl

/-! ## draw -/

@[simp] theorem draw_A (s : State) : (s.draw.2).A = s.A := rfl
@[simp] theorem draw_X (s : State) : (s.draw.2).X = s.X := rfl
@[simp] theorem draw_Y (s : State) : (s.draw.2).Y = s.Y := rfl
@[simp] theorem draw_S (s : State) : (s.draw.2).S = s.S := rfl
@[simp] theorem draw_PC (s : State) : (s.draw.2).PC = s.PC := rfl
@[simp] theorem draw_P (s : State) : (s.draw.2).P = s.P := rfl
@[simp] theorem draw_phase (s : State) : (s.draw.2).phase = s.phase := rfl
@[simp] theorem draw_boundary (s : State) : (s.draw.2).boundary = s.boundary := rfl
@[simp] theorem draw_irqLine (s : State) : (s.draw.2).irqLine = s.irqLine := rfl
@[simp] theorem draw_nmiPending (s : State) : (s.draw.2).nmiPending = s.nmiPending := rfl
@[simp] theorem draw_resetPending (s : State) : (s.draw.2).resetPending = s.resetPending := rfl
@[simp] theorem draw_dq (s : State) : (s.draw.2).dq = s.dq := rfl
@[simp] theorem draw_cart (s : State) : (s.draw.2).cart = s.cart := rfl
@[simp] theorem draw_observer (s : State) : (s.draw.2).observer = s.observer := rfl
@[simp] theorem draw_mem (s : State) : (s.draw.2).mem = s.mem := rfl
@[simp] theorem draw_devices (s : State) : (s.draw.2).devices = s.devices := rfl
@[simp] theorem draw_platform (s : State) : (s.draw.2).platform = s.platform := rfl
@[simp] theorem draw_undoc (s : State) : (s.draw.2).undoc = s.undoc := rfl
@[simp] theorem draw_draws (s : State) : (s.draw.2).draws = s.draws + 1 := rfl
@[simp] theorem draw_trace (s : State) : (s.draw.2).trace = s.trace := rfl
@[simp] theorem draw_traps (s : State) : (s.draw.2).traps = s.traps := rfl
@[simp] theorem draw_halt (s : State) : (s.draw.2).halt = s.halt := rfl

/-! ## readyToFetch -/

@[simp] theorem readyToFetch_A (s : State) : (readyToFetch s).A = s.A := rfl
@[simp] theorem readyToFetch_X (s : State) : (readyToFetch s).X = s.X := rfl
@[simp] theorem readyToFetch_Y (s : State) : (readyToFetch s).Y = s.Y := rfl
@[simp] theorem readyToFetch_S (s : State) : (readyToFetch s).S = s.S := rfl
@[simp] theorem readyToFetch_PC (s : State) : (readyToFetch s).PC = s.PC := rfl
@[simp] theorem readyToFetch_P (s : State) : (readyToFetch s).P = s.P := rfl
@[simp] theorem readyToFetch_phase (s : State) : (readyToFetch s).phase = .idle := rfl
@[simp] theorem readyToFetch_boundary (s : State) : (readyToFetch s).boundary = s.boundary := rfl
@[simp] theorem readyToFetch_irqLine (s : State) : (readyToFetch s).irqLine = (s.irqLine && s.P.I) := rfl
@[simp] theorem readyToFetch_nmiPending (s : State) : (readyToFetch s).nmiPending = false := rfl
@[simp] theorem readyToFetch_resetPending (s : State) : (readyToFetch s).resetPending = false := rfl
@[simp] theorem readyToFetch_dq (s : State) : (readyToFetch s).dq = s.dq := rfl
@[simp] theorem readyToFetch_cart (s : State) : (readyToFetch s).cart = s.cart := rfl
@[simp] theorem readyToFetch_observer (s : State) : (readyToFetch s).observer = s.observer := rfl
@[simp] theorem readyToFetch_mem (s : State) : (readyToFetch s).mem = s.mem := rfl
@[simp] theorem readyToFetch_devices (s : State) : (readyToFetch s).devices = s.devices := rfl
@[simp] theorem readyToFetch_platform (s : State) : (readyToFetch s).platform = s.platform := rfl
@[simp] theorem readyToFetch_undoc (s : State) : (readyToFetch s).undoc = s.undoc := rfl
@[simp] theorem readyToFetch_draws (s : State) : (readyToFetch s).draws = s.draws := rfl
@[simp] theorem readyToFetch_trace (s : State) : (readyToFetch s).trace = s.trace := rfl
@[simp] theorem readyToFetch_traps (s : State) : (readyToFetch s).traps = s.traps := rfl
@[simp] theorem readyToFetch_halt (s : State) : (readyToFetch s).halt = false := rfl

@[simp] theorem draw_value (s : State) : s.draw.1 = Config.freeByte s.draws := rfl

end Sys2Proof.Machine
end

