-- ==== Sys2Proof/Laws/Bus.lean ====
section
/-! SUPPORT. What a bus read and a bus write can do, once: each leaves every field alone but the few that its inversion
lemma names, and the field lemmas follow. -/

namespace Sys2Proof.Machine

/-! ## Reads -/

/-- All that a bus read can do (R61, R71): it changes at most the cartridge's bank state, the states of the devices
outside the block, the count of draws, what a trap leaves, and the trace. It keeps a cartridge's scheme, its ROM and its
form, and the form of the table of device states; a device of the block's own raises no trap, and with an observer none
halts the block. -/
theorem busRead_cases (a : Addr) (s : State) :
    ∃ c dv d e h, (busRead a s).2 = { s with
        cart := c, devices := dv, draws := d, traps := e, halt := h, trace := s.trace ++ [Access.rd a (busRead a s).1] } ∧
      c.map (fun c => (c.scheme, c.rom)) = s.cart.map (fun c => (c.scheme, c.rom)) ∧
      (s.cart.all Cartridge.wf = true → c.all Cartridge.wf = true) ∧
      (tableRising s.devices = true → tableRising dv = true) ∧
      ((s.route a).own = true → e = s.traps ∧ h = s.halt ∧ dv = s.devices) ∧ (s.observer = true → h = s.halt) := by
  unfold busRead State.deviceRead
  dsimp only
  cases s.route a with
  | ram base mirror => exact ⟨_, _, _, _, _, rfl, rfl, id, id, fun _ => ⟨rfl, rfl, rfl⟩, fun _ => rfl⟩
  | cart =>
    dsimp only
    split
    · rename_i c hc
      refine ⟨_, _, _, _, _, rfl, ?_, fun h => ?_, id, fun _ => ⟨rfl, rfl, rfl⟩, fun _ => rfl⟩
      · simp [hc, Cartridge.read_keeps]
      · rw [hc] at h
        exact Cartridge.wf_read _ h
    · exact ⟨_, _, _, _, _, rfl, rfl, id, id, fun _ => ⟨rfl, rfl, rfl⟩, fun _ => rfl⟩
  | chip => exact ⟨_, _, _, _, _, rfl, rfl, id, id, fun _ => ⟨rfl, rfl, rfl⟩, fun _ => rfl⟩
  | absent => exact ⟨_, _, _, _, _, rfl, rfl, id, id, fun _ => ⟨rfl, rfl, rfl⟩, fun _ => rfl⟩
  | other id' =>
    dsimp only
    split
    · exact ⟨_, _, _, _, _, rfl, rfl, id, tableRising_set _ _, nofun, fun _ => rfl⟩
    · unfold readTrap
      split
      · exact ⟨_, _, _, _, _, rfl, rfl, id, id, nofun, fun _ => rfl⟩
      · rename_i ho
        exact ⟨_, _, _, _, _, rfl, rfl, id, id, nofun, fun h => absurd h ho⟩

@[simp] theorem busRead_A (a : Addr) (s : State) : (busRead a s).2.A = s.A := by
  obtain ⟨_, _, _, _, _, h, _⟩ := busRead_cases a s; rw [h]
@[simp] theorem busRead_X (a : Addr) (s : State) : (busRead a s).2.X = s.X := by
  obtain ⟨_, _, _, _, _, h, _⟩ := busRead_cases a s; rw [h]
@[simp] theorem busRead_Y (a : Addr) (s : State) : (busRead a s).2.Y = s.Y := by
  obtain ⟨_, _, _, _, _, h, _⟩ := busRead_cases a s; rw [h]
@[simp] theorem busRead_S (a : Addr) (s : State) : (busRead a s).2.S = s.S := by
  obtain ⟨_, _, _, _, _, h, _⟩ := busRead_cases a s; rw [h]
@[simp] theorem busRead_PC (a : Addr) (s : State) : (busRead a s).2.PC = s.PC := by
  obtain ⟨_, _, _, _, _, h, _⟩ := busRead_cases a s; rw [h]
@[simp] theorem busRead_P (a : Addr) (s : State) : (busRead a s).2.P = s.P := by
  obtain ⟨_, _, _, _, _, h, _⟩ := busRead_cases a s; rw [h]
@[simp] theorem busRead_phase (a : Addr) (s : State) : (busRead a s).2.phase = s.phase := by
  obtain ⟨_, _, _, _, _, h, _⟩ := busRead_cases a s; rw [h]
@[simp] theorem busRead_boundary (a : Addr) (s : State) : (busRead a s).2.boundary = s.boundary := by
  obtain ⟨_, _, _, _, _, h, _⟩ := busRead_cases a s; rw [h]
@[simp] theorem busRead_irqLine (a : Addr) (s : State) : (busRead a s).2.irqLine = s.irqLine := by
  obtain ⟨_, _, _, _, _, h, _⟩ := busRead_cases a s; rw [h]
@[simp] theorem busRead_nmiPending (a : Addr) (s : State) : (busRead a s).2.nmiPending = s.nmiPending := by
  obtain ⟨_, _, _, _, _, h, _⟩ := busRead_cases a s; rw [h]
@[simp] theorem busRead_resetPending (a : Addr) (s : State) : (busRead a s).2.resetPending = s.resetPending := by
  obtain ⟨_, _, _, _, _, h, _⟩ := busRead_cases a s; rw [h]
@[simp] theorem busRead_dq (a : Addr) (s : State) : (busRead a s).2.dq = s.dq := by
  obtain ⟨_, _, _, _, _, h, _⟩ := busRead_cases a s; rw [h]
@[simp] theorem busRead_observer (a : Addr) (s : State) : (busRead a s).2.observer = s.observer := by
  obtain ⟨_, _, _, _, _, h, _⟩ := busRead_cases a s; rw [h]
@[simp] theorem busRead_mem (a : Addr) (s : State) : (busRead a s).2.mem = s.mem := by
  obtain ⟨_, _, _, _, _, h, _⟩ := busRead_cases a s; rw [h]
@[simp] theorem busRead_platform (a : Addr) (s : State) : (busRead a s).2.platform = s.platform := by
  obtain ⟨_, _, _, _, _, h, _⟩ := busRead_cases a s; rw [h]
@[simp] theorem busRead_undoc (a : Addr) (s : State) : (busRead a s).2.undoc = s.undoc := by
  obtain ⟨_, _, _, _, _, h, _⟩ := busRead_cases a s; rw [h]
@[simp] theorem busRead_trace (a : Addr) (s : State) :
    (busRead a s).2.trace = s.trace ++ [Access.rd a (busRead a s).1] := by
  obtain ⟨_, _, _, _, _, h, _⟩ := busRead_cases a s; rw [h]

theorem routeIn_own {rs : List Region} (h : rs.all (fun r => r.dev.own) = true) (a : Addr) :
    (routeIn rs a).own = true := by
  induction rs with
  | nil => rfl
  | cons r rs ih =>
    rw [List.all_cons, Bool.and_eq_true] at h
    unfold routeIn
    split
    · exact h.1
    · exact ih h.2

/-- A read of a device of the block's own raises no trap and leaves the devices outside it alone (R334, R361). -/
theorem busRead_own {a : Addr} {s : State} (h : (s.route a).own = true) :
    (busRead a s).2.traps = s.traps ∧ (busRead a s).2.halt = s.halt ∧ (busRead a s).2.devices = s.devices := by
  obtain ⟨_, _, _, _, _, e, _, _, _, hown, _⟩ := busRead_cases a s
  rw [e]
  exact hown h

/-- With an observer, or with no device outside the block, no bus read halts the block (R362). -/
theorem busRead_quiet (a : Addr) {s : State} (h : s.quiet = true) : (busRead a s).2.quiet = true := by
  unfold State.quiet at h ⊢
  rw [busRead_observer, busRead_platform]
  simp only [Bool.and_eq_true, Bool.not_eq_true', Bool.or_eq_true] at h ⊢
  refine ⟨?_, h.2⟩
  rcases h.2 with ho | hown
  · obtain ⟨_, _, _, _, _, e, _, _, _, _, hobs⟩ := busRead_cases a s
    rw [e]
    exact (hobs ho).trans h.1
  · exact (busRead_own (routeIn_own hown _)).2.1.trans h.1

/-- A bus read keeps the table of device states in its canonical form. -/
theorem busRead_devices_rising (a : Addr) {s : State} (h : tableRising s.devices = true) :
    tableRising (busRead a s).2.devices = true := by
  obtain ⟨_, _, _, _, _, e, _, _, hr, _⟩ := busRead_cases a s
  rw [e]
  exact hr h

/-- A bus read keeps whether there is a cartridge, its scheme and its ROM. -/
theorem busRead_cart (a : Addr) (s : State) :
    (busRead a s).2.cart.map (fun c => (c.scheme, c.rom)) = s.cart.map (fun c => (c.scheme, c.rom)) := by
  obtain ⟨_, _, _, _, _, e, hc, _⟩ := busRead_cases a s
  rw [e]
  exact hc

/-- A bus read keeps a cartridge well formed. -/
theorem busRead_cart_wf (a : Addr) {s : State} (h : s.cart.all Cartridge.wf = true) :
    (busRead a s).2.cart.all Cartridge.wf = true := by
  obtain ⟨_, _, _, _, _, e, _, hw, _⟩ := busRead_cases a s
  rw [e]
  exact hw h

/-- The RAM cell of an address, and the device that answers it. -/
theorem ramCell_eq {a : Addr} {s : State} {n : Nat} (h : s.ramCell a = some n) :
    ∃ base mirror, s.route a = .ram base mirror ∧ n = ramIndex base mirror (s.busAddr a) := by
  unfold State.ramCell at h
  cases hr : s.route a <;> rw [hr] at h <;> cases h
  exact ⟨_, _, rfl, rfl⟩

/-- A read of RAM (R64): the byte listed, and only the access recorded. -/
theorem busRead_listed {a : Addr} {s : State} {n : Nat} {v : Byte} (hc : s.ramCell a = some n)
    (hm : Memory.read s.mem n = some v) : busRead a s = (v, { s with trace := s.trace ++ [Access.rd a v] }) := by
  obtain ⟨_, _, hr, rfl⟩ := ramCell_eq hc
  unfold busRead State.deviceRead State.ramRead
  rw [hr]
  dsimp only
  rw [hm]
  rfl

/-- A read of RAM that nothing has written (R64, R400): the next free value. -/
theorem busRead_unlisted {a : Addr} {s : State} {n : Nat} (hc : s.ramCell a = some n)
    (hm : Memory.read s.mem n = none) :
    busRead a s = (Config.freeByte s.draws,
      { s with draws := s.draws + 1, trace := s.trace ++ [Access.rd a (Config.freeByte s.draws)] }) := by
  obtain ⟨_, _, hr, rfl⟩ := ramCell_eq hc
  unfold busRead State.deviceRead State.ramRead
  rw [hr]
  dsimp only
  rw [hm]
  rfl

/-! ## What only the platform decides -/

theorem route_congr {s t : State} (h : t.platform = s.platform) (a : Addr) : t.route a = s.route a := by
  unfold State.route State.busAddr; rw [h]

theorem busAddr_congr {s t : State} (h : t.platform = s.platform) (a : Addr) : t.busAddr a = s.busAddr a := by
  unfold State.busAddr; rw [h]

theorem ramCell_congr {s t : State} (h : t.platform = s.platform) (a : Addr) : t.ramCell a = s.ramCell a := by
  unfold State.ramCell; rw [route_congr h, busAddr_congr h]

/-- Whether a write is accepted depends on the platform, the observer and the cartridge's scheme. -/
theorem accepts_congr {s t : State} (hp : t.platform = s.platform) (ho : t.observer = s.observer)
    (hc : t.cart.map (fun c => (c.scheme, c.rom)) = s.cart.map (fun c => (c.scheme, c.rom))) (a : Addr) :
    t.accepts a = s.accepts a := by
  have hs : cartTakes t.cart (s.busAddr a) = cartTakes s.cart (s.busAddr a) := by
    cases h1 : t.cart <;> cases h2 : s.cart <;> simp_all [cartTakes, Cartridge.switchesAt]
  unfold State.accepts State.delayedAt
  rw [route_congr hp, busAddr_congr hp, hp, ho, hs]

@[simp] theorem busRead_route (a b : Addr) (s : State) : (busRead a s).2.route b = s.route b :=
  route_congr (busRead_platform a s) b

@[simp] theorem busRead_busAddr (a b : Addr) (s : State) : (busRead a s).2.busAddr b = s.busAddr b :=
  busAddr_congr (busRead_platform a s) b

@[simp] theorem busRead_ramCell (a b : Addr) (s : State) : (busRead a s).2.ramCell b = s.ramCell b :=
  ramCell_congr (busRead_platform a s) b

@[simp] theorem busRead_accepts (a b : Addr) (s : State) : (busRead a s).2.accepts b = s.accepts b :=
  accepts_congr (busRead_platform a s) (busRead_observer a s) (busRead_cart a s) b

/-! ## Writes -/

/-- What a device's write does if it does not halt the block (R325, R331, R76): it changes at most RAM, the cartridge's
bank state, the queue, the states of the devices outside the block and the events received, and keeps their forms. -/
theorem deviceWrite_cases {a : Addr} {v : Byte} {s t : State} (h : s.deviceWrite a v = .ok t) :
    ∃ m c q dv e, t = { s with mem := m, cart := c, dq := q, devices := dv, traps := e } ∧
      m = (match s.ramCell a with
        | some n => Memory.write s.mem n v
        | none => s.mem) ∧
      c.map (fun c => (c.scheme, c.rom)) = s.cart.map (fun c => (c.scheme, c.rom)) ∧
      (s.cart.all Cartridge.wf = true → c.all Cartridge.wf = true) ∧
      (q = s.dq ∨ ∃ r : DelayedReg, s.dq.push r.dest v r.delay = .ok q) ∧
      (tableRising s.devices = true → tableRising dv = true) := by
  have trap : ∀ {reason source}, raiseTrap reason source s = .ok t →
      t = { s with traps := t.traps } := by
    intro reason source ht
    unfold raiseTrap at ht
    split at ht <;> cases ht
    rfl
  unfold State.deviceWrite at h
  unfold State.ramCell
  cases hroute : s.route a with
  | ram base mirror =>
    rw [hroute] at h
    cases h
    exact ⟨_, _, _, _, _, rfl, rfl, rfl, id, .inl rfl, id⟩
  | absent =>
    rw [hroute] at h
    cases h
    exact ⟨_, _, _, _, _, rfl, rfl, rfl, id, .inl rfl, id⟩
  | chip =>
    rw [hroute] at h
    dsimp only at h
    split at h
    · rename_i r _
      split at h
      · rename_i q hq
        cases h
        exact ⟨_, _, _, _, _, rfl, rfl, rfl, id, .inr ⟨r, hq⟩, id⟩
      · cases h
    · cases h
      exact ⟨_, _, _, _, _, rfl, rfl, rfl, id, .inl rfl, id⟩
  | cart =>
    rw [hroute] at h
    dsimp only at h
    split at h
    · rename_i c hc
      split at h
      · rename_i c' hw
        cases h
        refine ⟨_, _, _, _, _, rfl, rfl, ?_, fun hwf => ?_, .inl rfl, id⟩
        · simp [hc, Cartridge.write_keeps hw]
        · rw [hc] at hwf
          exact Cartridge.wf_write hw hwf
      · exact ⟨_, _, _, _, _, trap h, rfl, rfl, id, .inl rfl, id⟩
    · cases h
      exact ⟨_, _, _, _, _, rfl, rfl, rfl, id, .inl rfl, id⟩
  | other id' =>
    rw [hroute] at h
    dsimp only at h
    split at h
    · cases h
      exact ⟨_, _, _, _, _, rfl, rfl, rfl, id, .inl rfl, tableRising_set _ _⟩
    · exact ⟨_, _, _, _, _, trap h, rfl, rfl, id, .inl rfl, id⟩

/-- A bus write is the device's, with the access recorded; a halt under way comes first (R366). -/
theorem busWrite_ok {a : Addr} {v : Byte} {s t : State} :
    busWrite a v s = .ok t ↔ State.deviceWrite { s with trace := s.trace ++ [Access.wr a v] } a v = .ok t := by
  unfold busWrite
  cases State.deviceWrite { s with trace := s.trace ++ [Access.wr a v] } a v <;> simp

/-- With no halt under way, a bus write is the device's, with the access recorded. -/
theorem busWrite_device (a : Addr) (v : Byte) {s : State} (hh : s.halt = false) :
    busWrite a v s = State.deviceWrite { s with trace := s.trace ++ [Access.wr a v] } a v := by
  have hf : s.firstFault = id := by
    unfold State.firstFault
    rw [hh]
    rfl
  unfold busWrite
  rw [hf]
  cases State.deviceWrite { s with trace := s.trace ++ [Access.wr a v] } a v <;> rfl

/-- A bus write that does not halt the block (R61, R325, R331, R76): it changes at most RAM, the cartridge's bank state,
the queue, the states of the devices outside the block, the events received and the trace. -/
theorem busWrite_cases {a : Addr} {v : Byte} {s t : State} (h : busWrite a v s = .ok t) :
    ∃ m c q dv e, t = { s with
        mem := m, cart := c, dq := q, devices := dv, traps := e, trace := s.trace ++ [Access.wr a v] } ∧
      m = (match s.ramCell a with
        | some n => Memory.write s.mem n v
        | none => s.mem) ∧
      c.map (fun c => (c.scheme, c.rom)) = s.cart.map (fun c => (c.scheme, c.rom)) ∧
      (s.cart.all Cartridge.wf = true → c.all Cartridge.wf = true) ∧
      (q = s.dq ∨ ∃ r : DelayedReg, s.dq.push r.dest v r.delay = .ok q) ∧
      (tableRising s.devices = true → tableRising dv = true) :=
  deviceWrite_cases (busWrite_ok.mp h)

/-- A write to RAM (R64). -/
theorem busWrite_ram {a : Addr} {s : State} {n : Nat} (v : Byte) (hc : s.ramCell a = some n) :
    busWrite a v s = .ok { s with mem := Memory.write s.mem n v, trace := s.trace ++ [Access.wr a v] } := by
  obtain ⟨base, mirror, hr, rfl⟩ := ramCell_eq hc
  refine busWrite_ok.mpr ?_
  unfold State.deviceWrite
  have : State.route { s with trace := s.trace ++ [Access.wr a v] } a = .ram base mirror := hr
  rw [this]
  rfl

/-- A write that the cartridge does not take (R325, R362): one event with an observer, the fatal halt without. -/
theorem busWrite_trap {a : Addr} {s : State} {c : Cartridge} (v : Byte) (hh : s.halt = false) (hr : s.route a = .cart)
    (hc : s.cart = some c) (hw : c.write (s.busAddr a) v = none) :
    busWrite a v s = raiseTrap .invalidWrite .cartridge { s with trace := s.trace ++ [Access.wr a v] } := by
  rw [busWrite_device a v hh]
  unfold State.deviceWrite
  have hr' : State.route { s with trace := s.trace ++ [Access.wr a v] } a = .cart := hr
  rw [hr']
  dsimp only
  split
  · rename_i c' hc'
    cases hc.symm.trans hc'
    change (match c.write (s.busAddr a) v with
      | some c' => _
      | none => _) = _
    rw [hw]
  · rename_i hc'
    cases hc.symm.trans hc'

/-- A write that halts the block does so by a trap whose reason is `invalidRead` or `invalidWrite` (R361), or by the queue
(R303, R305). -/
theorem busWrite_error {a : Addr} {v : Byte} {s : State} {f : Fault} (h : busWrite a v s = .error f) :
    f ≠ .trapWithoutObserver .decodeFailure := by
  have trap : ∀ {source t g}, raiseTrap .invalidWrite source t = .error g → g ≠ .trapWithoutObserver .decodeFailure := by
    intro source t g hg
    unfold raiseTrap at hg
    split at hg <;> cases hg
    nofun
  have push : ∀ {q : DelayQueue} {d w n g}, q.push d w n = .error g → g ≠ .trapWithoutObserver .decodeFailure := by
    intro q d w n g hg
    unfold DelayQueue.push at hg
    split at hg
    · cases hg; nofun
    · dsimp only at hg
      split at hg <;> cases hg
      nofun
  have device : ∀ {t g}, State.deviceWrite t a v = .error g → g ≠ .trapWithoutObserver .decodeFailure := by
    intro t g hg
    unfold State.deviceWrite at hg
    cases hr : t.route a <;> rw [hr] at hg <;> dsimp only at hg
    · cases hg
    · split at hg
      · split at hg
        · cases hg
        · exact trap hg
      · cases hg
    · split at hg
      · split at hg
        · cases hg
        · rename_i hp
          cases hg
          exact push hp
      · cases hg
    · cases hg
    · split at hg
      · cases hg
      · exact trap hg
  unfold busWrite State.firstFault at h
  split at h
  · cases h
  · rename_i g hg
    cases h
    split
    · nofun
    · exact device hg

/-- The only event that a write adds is an invalid write (R361). -/
theorem busWrite_events {a : Addr} {v : Byte} {s t : State} (h : busWrite a v s = .ok t) :
    t.traps = s.traps ∨ ∃ source, t.traps = s.traps ++ [trapEvent .invalidWrite source] := by
  have device : ∀ {u}, State.deviceWrite u a v = .ok t →
      t.traps = u.traps ∨ ∃ source, t.traps = u.traps ++ [trapEvent .invalidWrite source] := by
    intro u hu
    have trap : ∀ {source}, raiseTrap .invalidWrite source u = .ok t →
        t.traps = u.traps ∨ ∃ source, t.traps = u.traps ++ [trapEvent .invalidWrite source] := by
      intro source ht
      unfold raiseTrap at ht
      split at ht <;> cases ht
      exact .inr ⟨_, rfl⟩
    unfold State.deviceWrite at hu
    cases hr : u.route a <;> rw [hr] at hu <;> dsimp only at hu
    · cases hu; exact .inl rfl
    · split at hu
      · split at hu
        · cases hu; exact .inl rfl
        · exact trap hu
      · cases hu; exact .inl rfl
    · split at hu
      · split at hu <;> cases hu
        exact .inl rfl
      · cases hu; exact .inl rfl
    · cases hu; exact .inl rfl
    · split at hu
      · cases hu; exact .inl rfl
      · exact trap hu
  have events := device (busWrite_ok.mp h)
  exact events

/-- The only event that a read adds is an invalid read of a device outside the block (R334, R361). -/
theorem busRead_events (a : Addr) (s : State) :
    (busRead a s).2.traps = s.traps ∨ (busRead a s).2.traps = s.traps ++ [trapEvent .invalidRead .bus] := by
  cases hr : s.route a with
  | other id' =>
    unfold busRead State.deviceRead
    rw [hr]
    dsimp only
    split
    · exact .inl rfl
    · unfold readTrap
      split
      · exact .inr rfl
      · exact .inl rfl
  | _ => exact .inl (busRead_own (by rw [hr]; rfl)).1

/-- An accepted write does not halt the block. -/
theorem busWrite_accepts {a : Addr} {s : State} (v : Byte) (h : s.accepts a = true) : ∃ t, busWrite a v s = .ok t := by
  simp only [busWrite_ok]
  unfold State.accepts at h
  unfold State.deviceWrite
  have hr : State.route { s with trace := s.trace ++ [Access.wr a v] } a = s.route a := rfl
  rw [hr]
  cases hroute : s.route a with
  | ram base mirror => exact ⟨_, rfl⟩
  | absent => exact ⟨_, rfl⟩
  | chip =>
    rw [hroute] at h
    have hd : State.delayedAt { s with trace := s.trace ++ [Access.wr a v] } a = s.delayedAt a := rfl
    dsimp only
    rw [hd, Option.isNone_iff_eq_none.mp h]
    exact ⟨_, rfl⟩
  | cart =>
    rw [hroute] at h
    dsimp only
    cases hc : s.cart with
    | none => exact ⟨_, rfl⟩
    | some c =>
      simp only [hc, cartTakes, Bool.or_eq_true] at h
      dsimp only
      change ∃ t, (match c.write (s.busAddr a) v with
        | some c' => _
        | none => _) = Except.ok t
      cases hw : c.write (s.busAddr a) v with
      | some c' => exact ⟨_, rfl⟩
      | none =>
        dsimp only
        unfold raiseTrap
        rcases h with h | h
        · simp [h]
        · unfold Cartridge.write at hw
          unfold Cartridge.switchesAt at h
          cases hsch : c.scheme <;> simp [hsch] at h hw
          simp [hw] at h
  | other id =>
    rw [hroute] at h
    dsimp only at h ⊢
    split
    · exact ⟨_, rfl⟩
    · unfold raiseTrap
      rw [if_pos h]
      exact ⟨_, rfl⟩

theorem busWrite_A {a : Addr} {v : Byte} {s t : State} (h : busWrite a v s = .ok t) : t.A = s.A := by
  obtain ⟨_, _, _, _, _, rfl, _⟩ := busWrite_cases h; rfl
theorem busWrite_X {a : Addr} {v : Byte} {s t : State} (h : busWrite a v s = .ok t) : t.X = s.X := by
  obtain ⟨_, _, _, _, _, rfl, _⟩ := busWrite_cases h; rfl
theorem busWrite_Y {a : Addr} {v : Byte} {s t : State} (h : busWrite a v s = .ok t) : t.Y = s.Y := by
  obtain ⟨_, _, _, _, _, rfl, _⟩ := busWrite_cases h; rfl
theorem busWrite_S {a : Addr} {v : Byte} {s t : State} (h : busWrite a v s = .ok t) : t.S = s.S := by
  obtain ⟨_, _, _, _, _, rfl, _⟩ := busWrite_cases h; rfl
theorem busWrite_PC {a : Addr} {v : Byte} {s t : State} (h : busWrite a v s = .ok t) : t.PC = s.PC := by
  obtain ⟨_, _, _, _, _, rfl, _⟩ := busWrite_cases h; rfl
theorem busWrite_P {a : Addr} {v : Byte} {s t : State} (h : busWrite a v s = .ok t) : t.P = s.P := by
  obtain ⟨_, _, _, _, _, rfl, _⟩ := busWrite_cases h; rfl
theorem busWrite_phase {a : Addr} {v : Byte} {s t : State} (h : busWrite a v s = .ok t) : t.phase = s.phase := by
  obtain ⟨_, _, _, _, _, rfl, _⟩ := busWrite_cases h; rfl
theorem busWrite_boundary {a : Addr} {v : Byte} {s t : State} (h : busWrite a v s = .ok t) : t.boundary = s.boundary := by
  obtain ⟨_, _, _, _, _, rfl, _⟩ := busWrite_cases h; rfl
theorem busWrite_irqLine {a : Addr} {v : Byte} {s t : State} (h : busWrite a v s = .ok t) : t.irqLine = s.irqLine := by
  obtain ⟨_, _, _, _, _, rfl, _⟩ := busWrite_cases h; rfl
theorem busWrite_nmiPending {a : Addr} {v : Byte} {s t : State} (h : busWrite a v s = .ok t) : t.nmiPending = s.nmiPending := by
  obtain ⟨_, _, _, _, _, rfl, _⟩ := busWrite_cases h; rfl
theorem busWrite_resetPending {a : Addr} {v : Byte} {s t : State} (h : busWrite a v s = .ok t) : t.resetPending = s.resetPending := by
  obtain ⟨_, _, _, _, _, rfl, _⟩ := busWrite_cases h; rfl
theorem busWrite_observer {a : Addr} {v : Byte} {s t : State} (h : busWrite a v s = .ok t) : t.observer = s.observer := by
  obtain ⟨_, _, _, _, _, rfl, _⟩ := busWrite_cases h; rfl
theorem busWrite_platform {a : Addr} {v : Byte} {s t : State} (h : busWrite a v s = .ok t) : t.platform = s.platform := by
  obtain ⟨_, _, _, _, _, rfl, _⟩ := busWrite_cases h; rfl
theorem busWrite_undoc {a : Addr} {v : Byte} {s t : State} (h : busWrite a v s = .ok t) : t.undoc = s.undoc := by
  obtain ⟨_, _, _, _, _, rfl, _⟩ := busWrite_cases h; rfl
theorem busWrite_draws {a : Addr} {v : Byte} {s t : State} (h : busWrite a v s = .ok t) : t.draws = s.draws := by
  obtain ⟨_, _, _, _, _, rfl, _⟩ := busWrite_cases h; rfl
theorem busWrite_halt {a : Addr} {v : Byte} {s t : State} (h : busWrite a v s = .ok t) : t.halt = s.halt := by
  obtain ⟨_, _, _, _, _, rfl, _⟩ := busWrite_cases h; rfl
theorem busWrite_trace {a : Addr} {v : Byte} {s t : State} (h : busWrite a v s = .ok t) :
    t.trace = s.trace ++ [Access.wr a v] := by
  obtain ⟨_, _, _, _, _, rfl, _⟩ := busWrite_cases h; rfl

/-- RAM after an accepted write: only the cell that the address names, if it names one. -/
theorem busWrite_mem {a : Addr} {v : Byte} {s t : State} (h : busWrite a v s = .ok t) :
    t.mem = (match s.ramCell a with
      | some n => Memory.write s.mem n v
      | none => s.mem) := by
  obtain ⟨_, _, _, _, _, rfl, hm, _⟩ := busWrite_cases h; exact hm

/-- Every cell that the address does not name reads as before. -/
theorem busWrite_read_other {a : Addr} {v : Byte} {s t : State} (h : busWrite a v s = .ok t) {n : Nat}
    (hn : s.ramCell a ≠ some n) : Memory.read t.mem n = Memory.read s.mem n := by
  rw [busWrite_mem h]
  cases hc : s.ramCell a with
  | none => rfl
  | some k =>
    have : n ≠ k := fun e => hn (by rw [hc, e])
    exact tableGet_set_other _ _ this

/-- The cell that the address names holds the byte written. -/
theorem busWrite_read_same {a : Addr} {v : Byte} {s t : State} (h : busWrite a v s = .ok t) {n : Nat}
    (hn : s.ramCell a = some n) : Memory.read t.mem n = some v := by
  rw [busWrite_mem h, hn]
  exact tableGet_set_self _ _ _

theorem busWrite_cart {a : Addr} {v : Byte} {s t : State} (h : busWrite a v s = .ok t) :
    t.cart.map (fun c => (c.scheme, c.rom)) = s.cart.map (fun c => (c.scheme, c.rom)) := by
  obtain ⟨_, _, _, _, _, rfl, _, hc, _⟩ := busWrite_cases h; exact hc

theorem busWrite_route {a : Addr} {v : Byte} {s t : State} (h : busWrite a v s = .ok t) (b : Addr) :
    t.route b = s.route b := route_congr (busWrite_platform h) b

theorem busWrite_ramCell {a : Addr} {v : Byte} {s t : State} (h : busWrite a v s = .ok t) (b : Addr) :
    t.ramCell b = s.ramCell b := ramCell_congr (busWrite_platform h) b

theorem busWrite_keeps_accepts {a : Addr} {v : Byte} {s t : State} (h : busWrite a v s = .ok t) (b : Addr) :
    t.accepts b = s.accepts b :=
  accepts_congr (busWrite_platform h) (busWrite_observer h) (busWrite_cart h) b

/-- A bus write keeps that no read can halt the block. -/
theorem busWrite_quiet {a : Addr} {v : Byte} {s t : State} (h : busWrite a v s = .ok t) (hq : s.quiet = true) :
    t.quiet = true := by
  unfold State.quiet at hq ⊢
  rwa [busWrite_halt h, busWrite_observer h, busWrite_platform h]

end Sys2Proof.Machine
end

