-- ==== Sys2Proof/Laws/Bytes.lean ====
section
/-! SUPPORT. The laws of putting two bytes together and taking an address apart (R14, R68). -/

namespace Sys2Proof

@[simp] theorem mkAddr_hiByte_loByte (a : Addr) : mkAddr (hiByte a) (loByte a) = a := by
  unfold mkAddr hiByte loByte
  ext i h
  rw [BitVec.getElem_append]
  split
  · rw [BitVec.getElem_extractLsb', Nat.zero_add]; exact BitVec.getLsbD_eq_getElem h
  · rw [BitVec.getElem_extractLsb', show 8 + (i - 8) = i by omega, BitVec.getLsbD_eq_getElem]

@[simp] theorem hiByte_mkAddr (hi lo : Byte) : hiByte (mkAddr hi lo) = hi := by
  unfold mkAddr hiByte
  ext i h
  rw [BitVec.getElem_extractLsb', BitVec.getLsbD_append]
  simp [BitVec.getLsbD_eq_getElem, h]

@[simp] theorem loByte_mkAddr (hi lo : Byte) : loByte (mkAddr hi lo) = lo := by
  unfold mkAddr loByte
  ext i h
  rw [BitVec.getElem_extractLsb', BitVec.getLsbD_append]
  simp [BitVec.getLsbD_eq_getElem, h]

theorem mkAddr_toNat (hi lo : Byte) : (mkAddr hi lo).toNat = hi.toNat * 256 + lo.toNat := by
  unfold mkAddr
  rw [BitVec.toNat_append, Nat.shiftLeft_eq, Nat.mul_comm, ← Nat.two_pow_add_eq_or_of_lt lo.isLt]

theorem hiByte_toNat (a : Addr) : (hiByte a).toNat = a.toNat / 256 := by
  unfold hiByte
  rw [BitVec.extractLsb'_toNat, Nat.shiftRight_eq_div_pow]
  omega

theorem loByte_toNat (a : Addr) : (loByte a).toNat = a.toNat % 256 := by
  unfold loByte
  rw [BitVec.extractLsb'_toNat, Nat.shiftRight_zero]

theorem mkAddr_inj {h₁ l₁ h₂ l₂ : Byte} (h : mkAddr h₁ l₁ = mkAddr h₂ l₂) : h₁ = h₂ ∧ l₁ = l₂ :=
  ⟨by simpa using congrArg hiByte h, by simpa using congrArg loByte h⟩

end Sys2Proof
end

