-- ==== Sys2Proof/Laws/Exec.lean ====
section
/-! SUPPORT. `exec` by constructor: the arm of each instruction, for rewriting without unfolding the dispatch. -/

namespace Sys2Proof.Machine

@[simp] theorem exec_brk (s : State) : exec .brk s = execBrk s := rfl
@[simp] theorem exec_oraIzx (d : Byte) (s : State) : exec (.oraIzx d) s = execOraIzx d s := rfl
@[simp] theorem exec_jam02 (s : State) : exec .jam02 s = execJam02 s := rfl
@[simp] theorem exec_sloIzx (d : Byte) (s : State) : exec (.sloIzx d) s = execSloIzx d s := rfl
@[simp] theorem exec_nopZp04 (d : Byte) (s : State) : exec (.nopZp04 d) s = execNopZp04 d s := rfl
@[simp] theorem exec_oraZp (d : Byte) (s : State) : exec (.oraZp d) s = execOraZp d s := rfl
@[simp] theorem exec_aslZp (d : Byte) (s : State) : exec (.aslZp d) s = execAslZp d s := rfl
@[simp] theorem exec_sloZp (d : Byte) (s : State) : exec (.sloZp d) s = execSloZp d s := rfl
@[simp] theorem exec_php (s : State) : exec .php s = execPhp s := rfl
@[simp] theorem exec_oraImm (d : Byte) (s : State) : exec (.oraImm d) s = execOraImm d s := rfl
@[simp] theorem exec_aslAcc (s : State) : exec .aslAcc s = execAslAcc s := rfl
@[simp] theorem exec_ancImm0B (d : Byte) (s : State) : exec (.ancImm0B d) s = execAncImm0B d s := rfl
@[simp] theorem exec_nopAbs0C (a : Addr) (s : State) : exec (.nopAbs0C a) s = execNopAbs0C a s := rfl
@[simp] theorem exec_oraAbs (a : Addr) (s : State) : exec (.oraAbs a) s = execOraAbs a s := rfl
@[simp] theorem exec_aslAbs (a : Addr) (s : State) : exec (.aslAbs a) s = execAslAbs a s := rfl
@[simp] theorem exec_sloAbs (a : Addr) (s : State) : exec (.sloAbs a) s = execSloAbs a s := rfl
@[simp] theorem exec_bpl (d : Byte) (s : State) : exec (.bpl d) s = execBpl d s := rfl
@[simp] theorem exec_oraIzy (d : Byte) (s : State) : exec (.oraIzy d) s = execOraIzy d s := rfl
@[simp] theorem exec_jam12 (s : State) : exec .jam12 s = execJam12 s := rfl
@[simp] theorem exec_sloIzy (d : Byte) (s : State) : exec (.sloIzy d) s = execSloIzy d s := rfl
@[simp] theorem exec_nopZpx14 (d : Byte) (s : State) : exec (.nopZpx14 d) s = execNopZpx14 d s := rfl
@[simp] theorem exec_oraZpx (d : Byte) (s : State) : exec (.oraZpx d) s = execOraZpx d s := rfl
@[simp] theorem exec_aslZpx (d : Byte) (s : State) : exec (.aslZpx d) s = execAslZpx d s := rfl
@[simp] theorem exec_sloZpx (d : Byte) (s : State) : exec (.sloZpx d) s = execSloZpx d s := rfl
@[simp] theorem exec_clc (s : State) : exec .clc s = execClc s := rfl
@[simp] theorem exec_oraAby (a : Addr) (s : State) : exec (.oraAby a) s = execOraAby a s := rfl
@[simp] theorem exec_nopImp1A (s : State) : exec .nopImp1A s = execNopImp1A s := rfl
@[simp] theorem exec_sloAby (a : Addr) (s : State) : exec (.sloAby a) s = execSloAby a s := rfl
@[simp] theorem exec_nopAbx1C (a : Addr) (s : State) : exec (.nopAbx1C a) s = execNopAbx1C a s := rfl
@[simp] theorem exec_oraAbx (a : Addr) (s : State) : exec (.oraAbx a) s = execOraAbx a s := rfl
@[simp] theorem exec_aslAbx (a : Addr) (s : State) : exec (.aslAbx a) s = execAslAbx a s := rfl
@[simp] theorem exec_sloAbx (a : Addr) (s : State) : exec (.sloAbx a) s = execSloAbx a s := rfl
@[simp] theorem exec_jsr (a : Addr) (s : State) : exec (.jsr a) s = execJsr a s := rfl
@[simp] theorem exec_andIzx (d : Byte) (s : State) : exec (.andIzx d) s = execAndIzx d s := rfl
@[simp] theorem exec_jam22 (s : State) : exec .jam22 s = execJam22 s := rfl
@[simp] theorem exec_rlaIzx (d : Byte) (s : State) : exec (.rlaIzx d) s = execRlaIzx d s := rfl
@[simp] theorem exec_bitZp (d : Byte) (s : State) : exec (.bitZp d) s = execBitZp d s := rfl
@[simp] theorem exec_andZp (d : Byte) (s : State) : exec (.andZp d) s = execAndZp d s := rfl
@[simp] theorem exec_rolZp (d : Byte) (s : State) : exec (.rolZp d) s = execRolZp d s := rfl
@[simp] theorem exec_rlaZp (d : Byte) (s : State) : exec (.rlaZp d) s = execRlaZp d s := rfl
@[simp] theorem exec_plp (s : State) : exec .plp s = execPlp s := rfl
@[simp] theorem exec_andImm (d : Byte) (s : State) : exec (.andImm d) s = execAndImm d s := rfl
@[simp] theorem exec_rolAcc (s : State) : exec .rolAcc s = execRolAcc s := rfl
@[simp] theorem exec_ancImm2B (d : Byte) (s : State) : exec (.ancImm2B d) s = execAncImm2B d s := rfl
@[simp] theorem exec_bitAbs (a : Addr) (s : State) : exec (.bitAbs a) s = execBitAbs a s := rfl
@[simp] theorem exec_andAbs (a : Addr) (s : State) : exec (.andAbs a) s = execAndAbs a s := rfl
@[simp] theorem exec_rolAbs (a : Addr) (s : State) : exec (.rolAbs a) s = execRolAbs a s := rfl
@[simp] theorem exec_rlaAbs (a : Addr) (s : State) : exec (.rlaAbs a) s = execRlaAbs a s := rfl
@[simp] theorem exec_bmi (d : Byte) (s : State) : exec (.bmi d) s = execBmi d s := rfl
@[simp] theorem exec_andIzy (d : Byte) (s : State) : exec (.andIzy d) s = execAndIzy d s := rfl
@[simp] theorem exec_jam32 (s : State) : exec .jam32 s = execJam32 s := rfl
@[simp] theorem exec_rlaIzy (d : Byte) (s : State) : exec (.rlaIzy d) s = execRlaIzy d s := rfl
@[simp] theorem exec_nopZpx34 (d : Byte) (s : State) : exec (.nopZpx34 d) s = execNopZpx34 d s := rfl
@[simp] theorem exec_andZpx (d : Byte) (s : State) : exec (.andZpx d) s = execAndZpx d s := rfl
@[simp] theorem exec_rolZpx (d : Byte) (s : State) : exec (.rolZpx d) s = execRolZpx d s := rfl
@[simp] theorem exec_rlaZpx (d : Byte) (s : State) : exec (.rlaZpx d) s = execRlaZpx d s := rfl
@[simp] theorem exec_sec (s : State) : exec .sec s = execSec s := rfl
@[simp] theorem exec_andAby (a : Addr) (s : State) : exec (.andAby a) s = execAndAby a s := rfl
@[simp] theorem exec_nopImp3A (s : State) : exec .nopImp3A s = execNopImp3A s := rfl
@[simp] theorem exec_rlaAby (a : Addr) (s : State) : exec (.rlaAby a) s = execRlaAby a s := rfl
@[simp] theorem exec_nopAbx3C (a : Addr) (s : State) : exec (.nopAbx3C a) s = execNopAbx3C a s := rfl
@[simp] theorem exec_andAbx (a : Addr) (s : State) : exec (.andAbx a) s = execAndAbx a s := rfl
@[simp] theorem exec_rolAbx (a : Addr) (s : State) : exec (.rolAbx a) s = execRolAbx a s := rfl
@[simp] theorem exec_rlaAbx (a : Addr) (s : State) : exec (.rlaAbx a) s = execRlaAbx a s := rfl
@[simp] theorem exec_rti (s : State) : exec .rti s = execRti s := rfl
@[simp] theorem exec_eorIzx (d : Byte) (s : State) : exec (.eorIzx d) s = execEorIzx d s := rfl
@[simp] theorem exec_jam42 (s : State) : exec .jam42 s = execJam42 s := rfl
@[simp] theorem exec_sreIzx (d : Byte) (s : State) : exec (.sreIzx d) s = execSreIzx d s := rfl
@[simp] theorem exec_nopZp44 (d : Byte) (s : State) : exec (.nopZp44 d) s = execNopZp44 d s := rfl
@[simp] theorem exec_eorZp (d : Byte) (s : State) : exec (.eorZp d) s = execEorZp d s := rfl
@[simp] theorem exec_lsrZp (d : Byte) (s : State) : exec (.lsrZp d) s = execLsrZp d s := rfl
@[simp] theorem exec_sreZp (d : Byte) (s : State) : exec (.sreZp d) s = execSreZp d s := rfl
@[simp] theorem exec_pha (s : State) : exec .pha s = execPha s := rfl
@[simp] theorem exec_eorImm (d : Byte) (s : State) : exec (.eorImm d) s = execEorImm d s := rfl
@[simp] theorem exec_lsrAcc (s : State) : exec .lsrAcc s = execLsrAcc s := rfl
@[simp] theorem exec_alrImm (d : Byte) (s : State) : exec (.alrImm d) s = execAlrImm d s := rfl
@[simp] theorem exec_jmpAbs (a : Addr) (s : State) : exec (.jmpAbs a) s = execJmpAbs a s := rfl
@[simp] theorem exec_eorAbs (a : Addr) (s : State) : exec (.eorAbs a) s = execEorAbs a s := rfl
@[simp] theorem exec_lsrAbs (a : Addr) (s : State) : exec (.lsrAbs a) s = execLsrAbs a s := rfl
@[simp] theorem exec_sreAbs (a : Addr) (s : State) : exec (.sreAbs a) s = execSreAbs a s := rfl
@[simp] theorem exec_bvc (d : Byte) (s : State) : exec (.bvc d) s = execBvc d s := rfl
@[simp] theorem exec_eorIzy (d : Byte) (s : State) : exec (.eorIzy d) s = execEorIzy d s := rfl
@[simp] theorem exec_jam52 (s : State) : exec .jam52 s = execJam52 s := rfl
@[simp] theorem exec_sreIzy (d : Byte) (s : State) : exec (.sreIzy d) s = execSreIzy d s := rfl
@[simp] theorem exec_nopZpx54 (d : Byte) (s : State) : exec (.nopZpx54 d) s = execNopZpx54 d s := rfl
@[simp] theorem exec_eorZpx (d : Byte) (s : State) : exec (.eorZpx d) s = execEorZpx d s := rfl
@[simp] theorem exec_lsrZpx (d : Byte) (s : State) : exec (.lsrZpx d) s = execLsrZpx d s := rfl
@[simp] theorem exec_sreZpx (d : Byte) (s : State) : exec (.sreZpx d) s = execSreZpx d s := rfl
@[simp] theorem exec_cli (s : State) : exec .cli s = execCli s := rfl
@[simp] theorem exec_eorAby (a : Addr) (s : State) : exec (.eorAby a) s = execEorAby a s := rfl
@[simp] theorem exec_nopImp5A (s : State) : exec .nopImp5A s = execNopImp5A s := rfl
@[simp] theorem exec_sreAby (a : Addr) (s : State) : exec (.sreAby a) s = execSreAby a s := rfl
@[simp] theorem exec_nopAbx5C (a : Addr) (s : State) : exec (.nopAbx5C a) s = execNopAbx5C a s := rfl
@[simp] theorem exec_eorAbx (a : Addr) (s : State) : exec (.eorAbx a) s = execEorAbx a s := rfl
@[simp] theorem exec_lsrAbx (a : Addr) (s : State) : exec (.lsrAbx a) s = execLsrAbx a s := rfl
@[simp] theorem exec_sreAbx (a : Addr) (s : State) : exec (.sreAbx a) s = execSreAbx a s := rfl
@[simp] theorem exec_rts (s : State) : exec .rts s = execRts s := rfl
@[simp] theorem exec_adcIzx (d : Byte) (s : State) : exec (.adcIzx d) s = execAdcIzx d s := rfl
@[simp] theorem exec_jam62 (s : State) : exec .jam62 s = execJam62 s := rfl
@[simp] theorem exec_rraIzx (d : Byte) (s : State) : exec (.rraIzx d) s = execRraIzx d s := rfl
@[simp] theorem exec_nopZp64 (d : Byte) (s : State) : exec (.nopZp64 d) s = execNopZp64 d s := rfl
@[simp] theorem exec_adcZp (d : Byte) (s : State) : exec (.adcZp d) s = execAdcZp d s := rfl
@[simp] theorem exec_rorZp (d : Byte) (s : State) : exec (.rorZp d) s = execRorZp d s := rfl
@[simp] theorem exec_rraZp (d : Byte) (s : State) : exec (.rraZp d) s = execRraZp d s := rfl
@[simp] theorem exec_pla (s : State) : exec .pla s = execPla s := rfl
@[simp] theorem exec_adcImm (d : Byte) (s : State) : exec (.adcImm d) s = execAdcImm d s := rfl
@[simp] theorem exec_rorAcc (s : State) : exec .rorAcc s = execRorAcc s := rfl
@[simp] theorem exec_arrImm (d : Byte) (s : State) : exec (.arrImm d) s = execArrImm d s := rfl
@[simp] theorem exec_jmpInd (a : Addr) (s : State) : exec (.jmpInd a) s = execJmpInd a s := rfl
@[simp] theorem exec_adcAbs (a : Addr) (s : State) : exec (.adcAbs a) s = execAdcAbs a s := rfl
@[simp] theorem exec_rorAbs (a : Addr) (s : State) : exec (.rorAbs a) s = execRorAbs a s := rfl
@[simp] theorem exec_rraAbs (a : Addr) (s : State) : exec (.rraAbs a) s = execRraAbs a s := rfl
@[simp] theorem exec_bvs (d : Byte) (s : State) : exec (.bvs d) s = execBvs d s := rfl
@[simp] theorem exec_adcIzy (d : Byte) (s : State) : exec (.adcIzy d) s = execAdcIzy d s := rfl
@[simp] theorem exec_jam72 (s : State) : exec .jam72 s = execJam72 s := rfl
@[simp] theorem exec_rraIzy (d : Byte) (s : State) : exec (.rraIzy d) s = execRraIzy d s := rfl
@[simp] theorem exec_nopZpx74 (d : Byte) (s : State) : exec (.nopZpx74 d) s = execNopZpx74 d s := rfl
@[simp] theorem exec_adcZpx (d : Byte) (s : State) : exec (.adcZpx d) s = execAdcZpx d s := rfl
@[simp] theorem exec_rorZpx (d : Byte) (s : State) : exec (.rorZpx d) s = execRorZpx d s := rfl
@[simp] theorem exec_rraZpx (d : Byte) (s : State) : exec (.rraZpx d) s = execRraZpx d s := rfl
@[simp] theorem exec_sei (s : State) : exec .sei s = execSei s := rfl
@[simp] theorem exec_adcAby (a : Addr) (s : State) : exec (.adcAby a) s = execAdcAby a s := rfl
@[simp] theorem exec_nopImp7A (s : State) : exec .nopImp7A s = execNopImp7A s := rfl
@[simp] theorem exec_rraAby (a : Addr) (s : State) : exec (.rraAby a) s = execRraAby a s := rfl
@[simp] theorem exec_nopAbx7C (a : Addr) (s : State) : exec (.nopAbx7C a) s = execNopAbx7C a s := rfl
@[simp] theorem exec_adcAbx (a : Addr) (s : State) : exec (.adcAbx a) s = execAdcAbx a s := rfl
@[simp] theorem exec_rorAbx (a : Addr) (s : State) : exec (.rorAbx a) s = execRorAbx a s := rfl
@[simp] theorem exec_rraAbx (a : Addr) (s : State) : exec (.rraAbx a) s = execRraAbx a s := rfl
@[simp] theorem exec_nopImm80 (d : Byte) (s : State) : exec (.nopImm80 d) s = execNopImm80 d s := rfl
@[simp] theorem exec_staIzx (d : Byte) (s : State) : exec (.staIzx d) s = execStaIzx d s := rfl
@[simp] theorem exec_nopImm82 (d : Byte) (s : State) : exec (.nopImm82 d) s = execNopImm82 d s := rfl
@[simp] theorem exec_saxIzx (d : Byte) (s : State) : exec (.saxIzx d) s = execSaxIzx d s := rfl
@[simp] theorem exec_styZp (d : Byte) (s : State) : exec (.styZp d) s = execStyZp d s := rfl
@[simp] theorem exec_staZp (d : Byte) (s : State) : exec (.staZp d) s = execStaZp d s := rfl
@[simp] theorem exec_stxZp (d : Byte) (s : State) : exec (.stxZp d) s = execStxZp d s := rfl
@[simp] theorem exec_saxZp (d : Byte) (s : State) : exec (.saxZp d) s = execSaxZp d s := rfl
@[simp] theorem exec_dey (s : State) : exec .dey s = execDey s := rfl
@[simp] theorem exec_nopImm89 (d : Byte) (s : State) : exec (.nopImm89 d) s = execNopImm89 d s := rfl
@[simp] theorem exec_txa (s : State) : exec .txa s = execTxa s := rfl
@[simp] theorem exec_aneImm (d : Byte) (s : State) : exec (.aneImm d) s = execAneImm d s := rfl
@[simp] theorem exec_styAbs (a : Addr) (s : State) : exec (.styAbs a) s = execStyAbs a s := rfl
@[simp] theorem exec_staAbs (a : Addr) (s : State) : exec (.staAbs a) s = execStaAbs a s := rfl
@[simp] theorem exec_stxAbs (a : Addr) (s : State) : exec (.stxAbs a) s = execStxAbs a s := rfl
@[simp] theorem exec_saxAbs (a : Addr) (s : State) : exec (.saxAbs a) s = execSaxAbs a s := rfl
@[simp] theorem exec_bcc (d : Byte) (s : State) : exec (.bcc d) s = execBcc d s := rfl
@[simp] theorem exec_staIzy (d : Byte) (s : State) : exec (.staIzy d) s = execStaIzy d s := rfl
@[simp] theorem exec_jam92 (s : State) : exec .jam92 s = execJam92 s := rfl
@[simp] theorem exec_shaIzy (d : Byte) (s : State) : exec (.shaIzy d) s = execShaIzy d s := rfl
@[simp] theorem exec_styZpx (d : Byte) (s : State) : exec (.styZpx d) s = execStyZpx d s := rfl
@[simp] theorem exec_staZpx (d : Byte) (s : State) : exec (.staZpx d) s = execStaZpx d s := rfl
@[simp] theorem exec_stxZpy (d : Byte) (s : State) : exec (.stxZpy d) s = execStxZpy d s := rfl
@[simp] theorem exec_saxZpy (d : Byte) (s : State) : exec (.saxZpy d) s = execSaxZpy d s := rfl
@[simp] theorem exec_tya (s : State) : exec .tya s = execTya s := rfl
@[simp] theorem exec_staAby (a : Addr) (s : State) : exec (.staAby a) s = execStaAby a s := rfl
@[simp] theorem exec_txs (s : State) : exec .txs s = execTxs s := rfl
@[simp] theorem exec_tasAby (a : Addr) (s : State) : exec (.tasAby a) s = execTasAby a s := rfl
@[simp] theorem exec_shyAbx (a : Addr) (s : State) : exec (.shyAbx a) s = execShyAbx a s := rfl
@[simp] theorem exec_staAbx (a : Addr) (s : State) : exec (.staAbx a) s = execStaAbx a s := rfl
@[simp] theorem exec_shxAby (a : Addr) (s : State) : exec (.shxAby a) s = execShxAby a s := rfl
@[simp] theorem exec_shaAby (a : Addr) (s : State) : exec (.shaAby a) s = execShaAby a s := rfl
@[simp] theorem exec_ldyImm (d : Byte) (s : State) : exec (.ldyImm d) s = execLdyImm d s := rfl
@[simp] theorem exec_ldaIzx (d : Byte) (s : State) : exec (.ldaIzx d) s = execLdaIzx d s := rfl
@[simp] theorem exec_ldxImm (d : Byte) (s : State) : exec (.ldxImm d) s = execLdxImm d s := rfl
@[simp] theorem exec_laxIzx (d : Byte) (s : State) : exec (.laxIzx d) s = execLaxIzx d s := rfl
@[simp] theorem exec_ldyZp (d : Byte) (s : State) : exec (.ldyZp d) s = execLdyZp d s := rfl
@[simp] theorem exec_ldaZp (d : Byte) (s : State) : exec (.ldaZp d) s = execLdaZp d s := rfl
@[simp] theorem exec_ldxZp (d : Byte) (s : State) : exec (.ldxZp d) s = execLdxZp d s := rfl
@[simp] theorem exec_laxZp (d : Byte) (s : State) : exec (.laxZp d) s = execLaxZp d s := rfl
@[simp] theorem exec_tay (s : State) : exec .tay s = execTay s := rfl
@[simp] theorem exec_ldaImm (d : Byte) (s : State) : exec (.ldaImm d) s = execLdaImm d s := rfl
@[simp] theorem exec_tax (s : State) : exec .tax s = execTax s := rfl
@[simp] theorem exec_lxaImm (d : Byte) (s : State) : exec (.lxaImm d) s = execLxaImm d s := rfl
@[simp] theorem exec_ldyAbs (a : Addr) (s : State) : exec (.ldyAbs a) s = execLdyAbs a s := rfl
@[simp] theorem exec_ldaAbs (a : Addr) (s : State) : exec (.ldaAbs a) s = execLdaAbs a s := rfl
@[simp] theorem exec_ldxAbs (a : Addr) (s : State) : exec (.ldxAbs a) s = execLdxAbs a s := rfl
@[simp] theorem exec_laxAbs (a : Addr) (s : State) : exec (.laxAbs a) s = execLaxAbs a s := rfl
@[simp] theorem exec_bcs (d : Byte) (s : State) : exec (.bcs d) s = execBcs d s := rfl
@[simp] theorem exec_ldaIzy (d : Byte) (s : State) : exec (.ldaIzy d) s = execLdaIzy d s := rfl
@[simp] theorem exec_jamB2 (s : State) : exec .jamB2 s = execJamB2 s := rfl
@[simp] theorem exec_laxIzy (d : Byte) (s : State) : exec (.laxIzy d) s = execLaxIzy d s := rfl
@[simp] theorem exec_ldyZpx (d : Byte) (s : State) : exec (.ldyZpx d) s = execLdyZpx d s := rfl
@[simp] theorem exec_ldaZpx (d : Byte) (s : State) : exec (.ldaZpx d) s = execLdaZpx d s := rfl
@[simp] theorem exec_ldxZpy (d : Byte) (s : State) : exec (.ldxZpy d) s = execLdxZpy d s := rfl
@[simp] theorem exec_laxZpy (d : Byte) (s : State) : exec (.laxZpy d) s = execLaxZpy d s := rfl
@[simp] theorem exec_clv (s : State) : exec .clv s = execClv s := rfl
@[simp] theorem exec_ldaAby (a : Addr) (s : State) : exec (.ldaAby a) s = execLdaAby a s := rfl
@[simp] theorem exec_tsx (s : State) : exec .tsx s = execTsx s := rfl
@[simp] theorem exec_lasAby (a : Addr) (s : State) : exec (.lasAby a) s = execLasAby a s := rfl
@[simp] theorem exec_ldyAbx (a : Addr) (s : State) : exec (.ldyAbx a) s = execLdyAbx a s := rfl
@[simp] theorem exec_ldaAbx (a : Addr) (s : State) : exec (.ldaAbx a) s = execLdaAbx a s := rfl
@[simp] theorem exec_ldxAby (a : Addr) (s : State) : exec (.ldxAby a) s = execLdxAby a s := rfl
@[simp] theorem exec_laxAby (a : Addr) (s : State) : exec (.laxAby a) s = execLaxAby a s := rfl
@[simp] theorem exec_cpyImm (d : Byte) (s : State) : exec (.cpyImm d) s = execCpyImm d s := rfl
@[simp] theorem exec_cmpIzx (d : Byte) (s : State) : exec (.cmpIzx d) s = execCmpIzx d s := rfl
@[simp] theorem exec_nopImmC2 (d : Byte) (s : State) : exec (.nopImmC2 d) s = execNopImmC2 d s := rfl
@[simp] theorem exec_dcpIzx (d : Byte) (s : State) : exec (.dcpIzx d) s = execDcpIzx d s := rfl
@[simp] theorem exec_cpyZp (d : Byte) (s : State) : exec (.cpyZp d) s = execCpyZp d s := rfl
@[simp] theorem exec_cmpZp (d : Byte) (s : State) : exec (.cmpZp d) s = execCmpZp d s := rfl
@[simp] theorem exec_decZp (d : Byte) (s : State) : exec (.decZp d) s = execDecZp d s := rfl
@[simp] theorem exec_dcpZp (d : Byte) (s : State) : exec (.dcpZp d) s = execDcpZp d s := rfl
@[simp] theorem exec_iny (s : State) : exec .iny s = execIny s := rfl
@[simp] theorem exec_cmpImm (d : Byte) (s : State) : exec (.cmpImm d) s = execCmpImm d s := rfl
@[simp] theorem exec_dex (s : State) : exec .dex s = execDex s := rfl
@[simp] theorem exec_sbxImm (d : Byte) (s : State) : exec (.sbxImm d) s = execSbxImm d s := rfl
@[simp] theorem exec_cpyAbs (a : Addr) (s : State) : exec (.cpyAbs a) s = execCpyAbs a s := rfl
@[simp] theorem exec_cmpAbs (a : Addr) (s : State) : exec (.cmpAbs a) s = execCmpAbs a s := rfl
@[simp] theorem exec_decAbs (a : Addr) (s : State) : exec (.decAbs a) s = execDecAbs a s := rfl
@[simp] theorem exec_dcpAbs (a : Addr) (s : State) : exec (.dcpAbs a) s = execDcpAbs a s := rfl
@[simp] theorem exec_bne (d : Byte) (s : State) : exec (.bne d) s = execBne d s := rfl
@[simp] theorem exec_cmpIzy (d : Byte) (s : State) : exec (.cmpIzy d) s = execCmpIzy d s := rfl
@[simp] theorem exec_jamD2 (s : State) : exec .jamD2 s = execJamD2 s := rfl
@[simp] theorem exec_dcpIzy (d : Byte) (s : State) : exec (.dcpIzy d) s = execDcpIzy d s := rfl
@[simp] theorem exec_nopZpxD4 (d : Byte) (s : State) : exec (.nopZpxD4 d) s = execNopZpxD4 d s := rfl
@[simp] theorem exec_cmpZpx (d : Byte) (s : State) : exec (.cmpZpx d) s = execCmpZpx d s := rfl
@[simp] theorem exec_decZpx (d : Byte) (s : State) : exec (.decZpx d) s = execDecZpx d s := rfl
@[simp] theorem exec_dcpZpx (d : Byte) (s : State) : exec (.dcpZpx d) s = execDcpZpx d s := rfl
@[simp] theorem exec_cld (s : State) : exec .cld s = execCld s := rfl
@[simp] theorem exec_cmpAby (a : Addr) (s : State) : exec (.cmpAby a) s = execCmpAby a s := rfl
@[simp] theorem exec_nopImpDA (s : State) : exec .nopImpDA s = execNopImpDA s := rfl
@[simp] theorem exec_dcpAby (a : Addr) (s : State) : exec (.dcpAby a) s = execDcpAby a s := rfl
@[simp] theorem exec_nopAbxDC (a : Addr) (s : State) : exec (.nopAbxDC a) s = execNopAbxDC a s := rfl
@[simp] theorem exec_cmpAbx (a : Addr) (s : State) : exec (.cmpAbx a) s = execCmpAbx a s := rfl
@[simp] theorem exec_decAbx (a : Addr) (s : State) : exec (.decAbx a) s = execDecAbx a s := rfl
@[simp] theorem exec_dcpAbx (a : Addr) (s : State) : exec (.dcpAbx a) s = execDcpAbx a s := rfl
@[simp] theorem exec_cpxImm (d : Byte) (s : State) : exec (.cpxImm d) s = execCpxImm d s := rfl
@[simp] theorem exec_sbcIzx (d : Byte) (s : State) : exec (.sbcIzx d) s = execSbcIzx d s := rfl
@[simp] theorem exec_nopImmE2 (d : Byte) (s : State) : exec (.nopImmE2 d) s = execNopImmE2 d s := rfl
@[simp] theorem exec_iscIzx (d : Byte) (s : State) : exec (.iscIzx d) s = execIscIzx d s := rfl
@[simp] theorem exec_cpxZp (d : Byte) (s : State) : exec (.cpxZp d) s = execCpxZp d s := rfl
@[simp] theorem exec_sbcZp (d : Byte) (s : State) : exec (.sbcZp d) s = execSbcZp d s := rfl
@[simp] theorem exec_incZp (d : Byte) (s : State) : exec (.incZp d) s = execIncZp d s := rfl
@[simp] theorem exec_iscZp (d : Byte) (s : State) : exec (.iscZp d) s = execIscZp d s := rfl
@[simp] theorem exec_inx (s : State) : exec .inx s = execInx s := rfl
@[simp] theorem exec_sbcImm (d : Byte) (s : State) : exec (.sbcImm d) s = execSbcImm d s := rfl
@[simp] theorem exec_nop (s : State) : exec .nop s = execNop s := rfl
@[simp] theorem exec_usbcImm (d : Byte) (s : State) : exec (.usbcImm d) s = execUsbcImm d s := rfl
@[simp] theorem exec_cpxAbs (a : Addr) (s : State) : exec (.cpxAbs a) s = execCpxAbs a s := rfl
@[simp] theorem exec_sbcAbs (a : Addr) (s : State) : exec (.sbcAbs a) s = execSbcAbs a s := rfl
@[simp] theorem exec_incAbs (a : Addr) (s : State) : exec (.incAbs a) s = execIncAbs a s := rfl
@[simp] theorem exec_iscAbs (a : Addr) (s : State) : exec (.iscAbs a) s = execIscAbs a s := rfl
@[simp] theorem exec_beq (d : Byte) (s : State) : exec (.beq d) s = execBeq d s := rfl
@[simp] theorem exec_sbcIzy (d : Byte) (s : State) : exec (.sbcIzy d) s = execSbcIzy d s := rfl
@[simp] theorem exec_jamF2 (s : State) : exec .jamF2 s = execJamF2 s := rfl
@[simp] theorem exec_iscIzy (d : Byte) (s : State) : exec (.iscIzy d) s = execIscIzy d s := rfl
@[simp] theorem exec_nopZpxF4 (d : Byte) (s : State) : exec (.nopZpxF4 d) s = execNopZpxF4 d s := rfl
@[simp] theorem exec_sbcZpx (d : Byte) (s : State) : exec (.sbcZpx d) s = execSbcZpx d s := rfl
@[simp] theorem exec_incZpx (d : Byte) (s : State) : exec (.incZpx d) s = execIncZpx d s := rfl
@[simp] theorem exec_iscZpx (d : Byte) (s : State) : exec (.iscZpx d) s = execIscZpx d s := rfl
@[simp] theorem exec_sed (s : State) : exec .sed s = execSed s := rfl
@[simp] theorem exec_sbcAby (a : Addr) (s : State) : exec (.sbcAby a) s = execSbcAby a s := rfl
@[simp] theorem exec_nopImpFA (s : State) : exec .nopImpFA s = execNopImpFA s := rfl
@[simp] theorem exec_iscAby (a : Addr) (s : State) : exec (.iscAby a) s = execIscAby a s := rfl
@[simp] theorem exec_nopAbxFC (a : Addr) (s : State) : exec (.nopAbxFC a) s = execNopAbxFC a s := rfl
@[simp] theorem exec_sbcAbx (a : Addr) (s : State) : exec (.sbcAbx a) s = execSbcAbx a s := rfl
@[simp] theorem exec_incAbx (a : Addr) (s : State) : exec (.incAbx a) s = execIncAbx a s := rfl
@[simp] theorem exec_iscAbx (a : Addr) (s : State) : exec (.iscAbx a) s = execIscAbx a s := rfl

end Sys2Proof.Machine
end

