-- ==== Sys2Proof/Laws/ExecTable.lean ====
section
/-! SUPPORT. The meaning of every instruction is the run of its opcode's cycle table from its operand bytes (R16, R134):
one equation for all of `exec`, from which the rules about all instructions follow. -/

namespace Sys2Proof.Machine

/-- The operand bytes fetched before the meaning runs, in the latches. -/
def operandBytes : List Byte → Latches
  | [] => Latches.empty
  | [lo] => { Latches.empty with lo }
  | lo :: hi :: _ => { Latches.empty with lo, hi }

/-- An instruction's opcode byte. -/
def opByte (i : Instr) : Byte := (encode i).headD 0#8

/-- The latches an instruction's meaning starts from. -/
def startLatches (i : Instr) : Latches := operandBytes ((encode i).tail.take (fetchedOperands (opByte i)))

/-- The entry of an instruction, its opcode byte having been looked up. -/
def instrEntry (i : Instr) : OpEntry :=
  match i with
  | .brk => .documented progBrk
  | .oraIzx _ => .documented progOraIzx
  | .jam02 => .annex progJam02
  | .sloIzx _ => .annex progSloIzx
  | .nopZp04 _ => .annex progNopZp04
  | .oraZp _ => .documented progOraZp
  | .aslZp _ => .documented progAslZp
  | .sloZp _ => .annex progSloZp
  | .php => .documented progPhp
  | .oraImm _ => .documented progOraImm
  | .aslAcc => .documented progAslAcc
  | .ancImm0B _ => .annex progAncImm0B
  | .nopAbs0C _ => .annex progNopAbs0C
  | .oraAbs _ => .documented progOraAbs
  | .aslAbs _ => .documented progAslAbs
  | .sloAbs _ => .annex progSloAbs
  | .bpl _ => .documented progBpl
  | .oraIzy _ => .documented progOraIzy
  | .jam12 => .annex progJam12
  | .sloIzy _ => .annex progSloIzy
  | .nopZpx14 _ => .annex progNopZpx14
  | .oraZpx _ => .documented progOraZpx
  | .aslZpx _ => .documented progAslZpx
  | .sloZpx _ => .annex progSloZpx
  | .clc => .documented progClc
  | .oraAby _ => .documented progOraAby
  | .nopImp1A => .annex progNopImp1A
  | .sloAby _ => .annex progSloAby
  | .nopAbx1C _ => .annex progNopAbx1C
  | .oraAbx _ => .documented progOraAbx
  | .aslAbx _ => .documented progAslAbx
  | .sloAbx _ => .annex progSloAbx
  | .jsr _ => .documented progJsr
  | .andIzx _ => .documented progAndIzx
  | .jam22 => .annex progJam22
  | .rlaIzx _ => .annex progRlaIzx
  | .bitZp _ => .documented progBitZp
  | .andZp _ => .documented progAndZp
  | .rolZp _ => .documented progRolZp
  | .rlaZp _ => .annex progRlaZp
  | .plp => .documented progPlp
  | .andImm _ => .documented progAndImm
  | .rolAcc => .documented progRolAcc
  | .ancImm2B _ => .annex progAncImm2B
  | .bitAbs _ => .documented progBitAbs
  | .andAbs _ => .documented progAndAbs
  | .rolAbs _ => .documented progRolAbs
  | .rlaAbs _ => .annex progRlaAbs
  | .bmi _ => .documented progBmi
  | .andIzy _ => .documented progAndIzy
  | .jam32 => .annex progJam32
  | .rlaIzy _ => .annex progRlaIzy
  | .nopZpx34 _ => .annex progNopZpx34
  | .andZpx _ => .documented progAndZpx
  | .rolZpx _ => .documented progRolZpx
  | .rlaZpx _ => .annex progRlaZpx
  | .sec => .documented progSec
  | .andAby _ => .documented progAndAby
  | .nopImp3A => .annex progNopImp3A
  | .rlaAby _ => .annex progRlaAby
  | .nopAbx3C _ => .annex progNopAbx3C
  | .andAbx _ => .documented progAndAbx
  | .rolAbx _ => .documented progRolAbx
  | .rlaAbx _ => .annex progRlaAbx
  | .rti => .documented progRti
  | .eorIzx _ => .documented progEorIzx
  | .jam42 => .annex progJam42
  | .sreIzx _ => .annex progSreIzx
  | .nopZp44 _ => .annex progNopZp44
  | .eorZp _ => .documented progEorZp
  | .lsrZp _ => .documented progLsrZp
  | .sreZp _ => .annex progSreZp
  | .pha => .documented progPha
  | .eorImm _ => .documented progEorImm
  | .lsrAcc => .documented progLsrAcc
  | .alrImm _ => .annex progAlrImm
  | .jmpAbs _ => .documented progJmpAbs
  | .eorAbs _ => .documented progEorAbs
  | .lsrAbs _ => .documented progLsrAbs
  | .sreAbs _ => .annex progSreAbs
  | .bvc _ => .documented progBvc
  | .eorIzy _ => .documented progEorIzy
  | .jam52 => .annex progJam52
  | .sreIzy _ => .annex progSreIzy
  | .nopZpx54 _ => .annex progNopZpx54
  | .eorZpx _ => .documented progEorZpx
  | .lsrZpx _ => .documented progLsrZpx
  | .sreZpx _ => .annex progSreZpx
  | .cli => .documented progCli
  | .eorAby _ => .documented progEorAby
  | .nopImp5A => .annex progNopImp5A
  | .sreAby _ => .annex progSreAby
  | .nopAbx5C _ => .annex progNopAbx5C
  | .eorAbx _ => .documented progEorAbx
  | .lsrAbx _ => .documented progLsrAbx
  | .sreAbx _ => .annex progSreAbx
  | .rts => .documented progRts
  | .adcIzx _ => .documented progAdcIzx
  | .jam62 => .annex progJam62
  | .rraIzx _ => .annex progRraIzx
  | .nopZp64 _ => .annex progNopZp64
  | .adcZp _ => .documented progAdcZp
  | .rorZp _ => .documented progRorZp
  | .rraZp _ => .annex progRraZp
  | .pla => .documented progPla
  | .adcImm _ => .documented progAdcImm
  | .rorAcc => .documented progRorAcc
  | .arrImm _ => .annex progArrImm
  | .jmpInd _ => .documented progJmpInd
  | .adcAbs _ => .documented progAdcAbs
  | .rorAbs _ => .documented progRorAbs
  | .rraAbs _ => .annex progRraAbs
  | .bvs _ => .documented progBvs
  | .adcIzy _ => .documented progAdcIzy
  | .jam72 => .annex progJam72
  | .rraIzy _ => .annex progRraIzy
  | .nopZpx74 _ => .annex progNopZpx74
  | .adcZpx _ => .documented progAdcZpx
  | .rorZpx _ => .documented progRorZpx
  | .rraZpx _ => .annex progRraZpx
  | .sei => .documented progSei
  | .adcAby _ => .documented progAdcAby
  | .nopImp7A => .annex progNopImp7A
  | .rraAby _ => .annex progRraAby
  | .nopAbx7C _ => .annex progNopAbx7C
  | .adcAbx _ => .documented progAdcAbx
  | .rorAbx _ => .documented progRorAbx
  | .rraAbx _ => .annex progRraAbx
  | .nopImm80 _ => .annex progNopImm80
  | .staIzx _ => .documented progStaIzx
  | .nopImm82 _ => .annex progNopImm82
  | .saxIzx _ => .annex progSaxIzx
  | .styZp _ => .documented progStyZp
  | .staZp _ => .documented progStaZp
  | .stxZp _ => .documented progStxZp
  | .saxZp _ => .annex progSaxZp
  | .dey => .documented progDey
  | .nopImm89 _ => .annex progNopImm89
  | .txa => .documented progTxa
  | .aneImm _ => .unstable
  | .styAbs _ => .documented progStyAbs
  | .staAbs _ => .documented progStaAbs
  | .stxAbs _ => .documented progStxAbs
  | .saxAbs _ => .annex progSaxAbs
  | .bcc _ => .documented progBcc
  | .staIzy _ => .documented progStaIzy
  | .jam92 => .annex progJam92
  | .shaIzy _ => .unstable
  | .styZpx _ => .documented progStyZpx
  | .staZpx _ => .documented progStaZpx
  | .stxZpy _ => .documented progStxZpy
  | .saxZpy _ => .annex progSaxZpy
  | .tya => .documented progTya
  | .staAby _ => .documented progStaAby
  | .txs => .documented progTxs
  | .tasAby _ => .unstable
  | .shyAbx _ => .unstable
  | .staAbx _ => .documented progStaAbx
  | .shxAby _ => .unstable
  | .shaAby _ => .unstable
  | .ldyImm _ => .documented progLdyImm
  | .ldaIzx _ => .documented progLdaIzx
  | .ldxImm _ => .documented progLdxImm
  | .laxIzx _ => .annex progLaxIzx
  | .ldyZp _ => .documented progLdyZp
  | .ldaZp _ => .documented progLdaZp
  | .ldxZp _ => .documented progLdxZp
  | .laxZp _ => .annex progLaxZp
  | .tay => .documented progTay
  | .ldaImm _ => .documented progLdaImm
  | .tax => .documented progTax
  | .lxaImm _ => .unstable
  | .ldyAbs _ => .documented progLdyAbs
  | .ldaAbs _ => .documented progLdaAbs
  | .ldxAbs _ => .documented progLdxAbs
  | .laxAbs _ => .annex progLaxAbs
  | .bcs _ => .documented progBcs
  | .ldaIzy _ => .documented progLdaIzy
  | .jamB2 => .annex progJamB2
  | .laxIzy _ => .annex progLaxIzy
  | .ldyZpx _ => .documented progLdyZpx
  | .ldaZpx _ => .documented progLdaZpx
  | .ldxZpy _ => .documented progLdxZpy
  | .laxZpy _ => .annex progLaxZpy
  | .clv => .documented progClv
  | .ldaAby _ => .documented progLdaAby
  | .tsx => .documented progTsx
  | .lasAby _ => .unstable
  | .ldyAbx _ => .documented progLdyAbx
  | .ldaAbx _ => .documented progLdaAbx
  | .ldxAby _ => .documented progLdxAby
  | .laxAby _ => .annex progLaxAby
  | .cpyImm _ => .documented progCpyImm
  | .cmpIzx _ => .documented progCmpIzx
  | .nopImmC2 _ => .annex progNopImmC2
  | .dcpIzx _ => .annex progDcpIzx
  | .cpyZp _ => .documented progCpyZp
  | .cmpZp _ => .documented progCmpZp
  | .decZp _ => .documented progDecZp
  | .dcpZp _ => .annex progDcpZp
  | .iny => .documented progIny
  | .cmpImm _ => .documented progCmpImm
  | .dex => .documented progDex
  | .sbxImm _ => .annex progSbxImm
  | .cpyAbs _ => .documented progCpyAbs
  | .cmpAbs _ => .documented progCmpAbs
  | .decAbs _ => .documented progDecAbs
  | .dcpAbs _ => .annex progDcpAbs
  | .bne _ => .documented progBne
  | .cmpIzy _ => .documented progCmpIzy
  | .jamD2 => .annex progJamD2
  | .dcpIzy _ => .annex progDcpIzy
  | .nopZpxD4 _ => .annex progNopZpxD4
  | .cmpZpx _ => .documented progCmpZpx
  | .decZpx _ => .documented progDecZpx
  | .dcpZpx _ => .annex progDcpZpx
  | .cld => .documented progCld
  | .cmpAby _ => .documented progCmpAby
  | .nopImpDA => .annex progNopImpDA
  | .dcpAby _ => .annex progDcpAby
  | .nopAbxDC _ => .annex progNopAbxDC
  | .cmpAbx _ => .documented progCmpAbx
  | .decAbx _ => .documented progDecAbx
  | .dcpAbx _ => .annex progDcpAbx
  | .cpxImm _ => .documented progCpxImm
  | .sbcIzx _ => .documented progSbcIzx
  | .nopImmE2 _ => .annex progNopImmE2
  | .iscIzx _ => .annex progIscIzx
  | .cpxZp _ => .documented progCpxZp
  | .sbcZp _ => .documented progSbcZp
  | .incZp _ => .documented progIncZp
  | .iscZp _ => .annex progIscZp
  | .inx => .documented progInx
  | .sbcImm _ => .documented progSbcImm
  | .nop => .documented progNop
  | .usbcImm _ => .annex progUsbcImm
  | .cpxAbs _ => .documented progCpxAbs
  | .sbcAbs _ => .documented progSbcAbs
  | .incAbs _ => .documented progIncAbs
  | .iscAbs _ => .annex progIscAbs
  | .beq _ => .documented progBeq
  | .sbcIzy _ => .documented progSbcIzy
  | .jamF2 => .annex progJamF2
  | .iscIzy _ => .annex progIscIzy
  | .nopZpxF4 _ => .annex progNopZpxF4
  | .sbcZpx _ => .documented progSbcZpx
  | .incZpx _ => .documented progIncZpx
  | .iscZpx _ => .annex progIscZpx
  | .sed => .documented progSed
  | .sbcAby _ => .documented progSbcAby
  | .nopImpFA => .annex progNopImpFA
  | .iscAby _ => .annex progIscAby
  | .nopAbxFC _ => .annex progNopAbxFC
  | .sbcAbx _ => .documented progSbcAbx
  | .incAbx _ => .documented progIncAbx
  | .iscAbx _ => .annex progIscAbx

/-- The run of an entry. -/
def OpEntry.run (op : Byte) (q : Latches) (s : State) : OpEntry → Out
  | .documented p => p.run q s
  | .annex p => annexed op s (p.run q s)
  | .unstable => .refused (.unstableOpcode op)

theorem run_of {i : Instr} {op : Byte} {q : Latches} {e : OpEntry} {s : State} (ho : opByte i = op)
    (hq : operandBytes ((encode i).tail.take (fetchedOperands op)) = q) (he : instrEntry i = e) (h : exec i s = e.run op q s) :
    exec i s = (instrEntry i).run (opByte i) (startLatches i) s := by
  unfold startLatches
  rw [ho, hq, he, h]

/-- Every meaning is the run of its entry. -/
theorem exec_eq_run (i : Instr) (s : State) : exec i s = (instrEntry i).run (opByte i) (startLatches i) s := by
  cases i with
  | brk => exact run_of (op := 0x00#8) (q := Latches.empty) (e := .documented progBrk) rfl rfl rfl rfl
  | oraIzx d => exact run_of (op := 0x01#8) (q := { Latches.empty with lo := d }) (e := .documented progOraIzx) rfl rfl rfl rfl
  | jam02 => exact run_of (op := 0x02#8) (q := Latches.empty) (e := .annex progJam02) rfl rfl rfl rfl
  | sloIzx d => exact run_of (op := 0x03#8) (q := { Latches.empty with lo := d }) (e := .annex progSloIzx) rfl rfl rfl rfl
  | nopZp04 d => exact run_of (op := 0x04#8) (q := { Latches.empty with lo := d }) (e := .annex progNopZp04) rfl rfl rfl rfl
  | oraZp d => exact run_of (op := 0x05#8) (q := { Latches.empty with lo := d }) (e := .documented progOraZp) rfl rfl rfl rfl
  | aslZp d => exact run_of (op := 0x06#8) (q := { Latches.empty with lo := d }) (e := .documented progAslZp) rfl rfl rfl rfl
  | sloZp d => exact run_of (op := 0x07#8) (q := { Latches.empty with lo := d }) (e := .annex progSloZp) rfl rfl rfl rfl
  | php => exact run_of (op := 0x08#8) (q := Latches.empty) (e := .documented progPhp) rfl rfl rfl rfl
  | oraImm d => exact run_of (op := 0x09#8) (q := { Latches.empty with lo := d }) (e := .documented progOraImm) rfl rfl rfl rfl
  | aslAcc => exact run_of (op := 0x0A#8) (q := Latches.empty) (e := .documented progAslAcc) rfl rfl rfl rfl
  | ancImm0B d => exact run_of (op := 0x0B#8) (q := { Latches.empty with lo := d }) (e := .annex progAncImm0B) rfl rfl rfl rfl
  | nopAbs0C a => exact run_of (op := 0x0C#8) (q := { Latches.empty with lo := loByte a, hi := hiByte a }) (e := .annex progNopAbs0C) rfl rfl rfl rfl
  | oraAbs a => exact run_of (op := 0x0D#8) (q := { Latches.empty with lo := loByte a, hi := hiByte a }) (e := .documented progOraAbs) rfl rfl rfl rfl
  | aslAbs a => exact run_of (op := 0x0E#8) (q := { Latches.empty with lo := loByte a, hi := hiByte a }) (e := .documented progAslAbs) rfl rfl rfl rfl
  | sloAbs a => exact run_of (op := 0x0F#8) (q := { Latches.empty with lo := loByte a, hi := hiByte a }) (e := .annex progSloAbs) rfl rfl rfl rfl
  | bpl d => exact run_of (op := 0x10#8) (q := { Latches.empty with lo := d }) (e := .documented progBpl) rfl rfl rfl rfl
  | oraIzy d => exact run_of (op := 0x11#8) (q := { Latches.empty with lo := d }) (e := .documented progOraIzy) rfl rfl rfl rfl
  | jam12 => exact run_of (op := 0x12#8) (q := Latches.empty) (e := .annex progJam12) rfl rfl rfl rfl
  | sloIzy d => exact run_of (op := 0x13#8) (q := { Latches.empty with lo := d }) (e := .annex progSloIzy) rfl rfl rfl rfl
  | nopZpx14 d => exact run_of (op := 0x14#8) (q := { Latches.empty with lo := d }) (e := .annex progNopZpx14) rfl rfl rfl rfl
  | oraZpx d => exact run_of (op := 0x15#8) (q := { Latches.empty with lo := d }) (e := .documented progOraZpx) rfl rfl rfl rfl
  | aslZpx d => exact run_of (op := 0x16#8) (q := { Latches.empty with lo := d }) (e := .documented progAslZpx) rfl rfl rfl rfl
  | sloZpx d => exact run_of (op := 0x17#8) (q := { Latches.empty with lo := d }) (e := .annex progSloZpx) rfl rfl rfl rfl
  | clc => exact run_of (op := 0x18#8) (q := Latches.empty) (e := .documented progClc) rfl rfl rfl rfl
  | oraAby a => exact run_of (op := 0x19#8) (q := { Latches.empty with lo := loByte a, hi := hiByte a }) (e := .documented progOraAby) rfl rfl rfl rfl
  | nopImp1A => exact run_of (op := 0x1A#8) (q := Latches.empty) (e := .annex progNopImp1A) rfl rfl rfl rfl
  | sloAby a => exact run_of (op := 0x1B#8) (q := { Latches.empty with lo := loByte a, hi := hiByte a }) (e := .annex progSloAby) rfl rfl rfl rfl
  | nopAbx1C a => exact run_of (op := 0x1C#8) (q := { Latches.empty with lo := loByte a, hi := hiByte a }) (e := .annex progNopAbx1C) rfl rfl rfl rfl
  | oraAbx a => exact run_of (op := 0x1D#8) (q := { Latches.empty with lo := loByte a, hi := hiByte a }) (e := .documented progOraAbx) rfl rfl rfl rfl
  | aslAbx a => exact run_of (op := 0x1E#8) (q := { Latches.empty with lo := loByte a, hi := hiByte a }) (e := .documented progAslAbx) rfl rfl rfl rfl
  | sloAbx a => exact run_of (op := 0x1F#8) (q := { Latches.empty with lo := loByte a, hi := hiByte a }) (e := .annex progSloAbx) rfl rfl rfl rfl
  | jsr a => exact run_of (op := 0x20#8) (q := { Latches.empty with lo := loByte a }) (e := .documented progJsr) rfl rfl rfl rfl
  | andIzx d => exact run_of (op := 0x21#8) (q := { Latches.empty with lo := d }) (e := .documented progAndIzx) rfl rfl rfl rfl
  | jam22 => exact run_of (op := 0x22#8) (q := Latches.empty) (e := .annex progJam22) rfl rfl rfl rfl
  | rlaIzx d => exact run_of (op := 0x23#8) (q := { Latches.empty with lo := d }) (e := .annex progRlaIzx) rfl rfl rfl rfl
  | bitZp d => exact run_of (op := 0x24#8) (q := { Latches.empty with lo := d }) (e := .documented progBitZp) rfl rfl rfl rfl
  | andZp d => exact run_of (op := 0x25#8) (q := { Latches.empty with lo := d }) (e := .documented progAndZp) rfl rfl rfl rfl
  | rolZp d => exact run_of (op := 0x26#8) (q := { Latches.empty with lo := d }) (e := .documented progRolZp) rfl rfl rfl rfl
  | rlaZp d => exact run_of (op := 0x27#8) (q := { Latches.empty with lo := d }) (e := .annex progRlaZp) rfl rfl rfl rfl
  | plp => exact run_of (op := 0x28#8) (q := Latches.empty) (e := .documented progPlp) rfl rfl rfl rfl
  | andImm d => exact run_of (op := 0x29#8) (q := { Latches.empty with lo := d }) (e := .documented progAndImm) rfl rfl rfl rfl
  | rolAcc => exact run_of (op := 0x2A#8) (q := Latches.empty) (e := .documented progRolAcc) rfl rfl rfl rfl
  | ancImm2B d => exact run_of (op := 0x2B#8) (q := { Latches.empty with lo := d }) (e := .annex progAncImm2B) rfl rfl rfl rfl
  | bitAbs a => exact run_of (op := 0x2C#8) (q := { Latches.empty with lo := loByte a, hi := hiByte a }) (e := .documented progBitAbs) rfl rfl rfl rfl
  | andAbs a => exact run_of (op := 0x2D#8) (q := { Latches.empty with lo := loByte a, hi := hiByte a }) (e := .documented progAndAbs) rfl rfl rfl rfl
  | rolAbs a => exact run_of (op := 0x2E#8) (q := { Latches.empty with lo := loByte a, hi := hiByte a }) (e := .documented progRolAbs) rfl rfl rfl rfl
  | rlaAbs a => exact run_of (op := 0x2F#8) (q := { Latches.empty with lo := loByte a, hi := hiByte a }) (e := .annex progRlaAbs) rfl rfl rfl rfl
  | bmi d => exact run_of (op := 0x30#8) (q := { Latches.empty with lo := d }) (e := .documented progBmi) rfl rfl rfl rfl
  | andIzy d => exact run_of (op := 0x31#8) (q := { Latches.empty with lo := d }) (e := .documented progAndIzy) rfl rfl rfl rfl
  | jam32 => exact run_of (op := 0x32#8) (q := Latches.empty) (e := .annex progJam32) rfl rfl rfl rfl
  | rlaIzy d => exact run_of (op := 0x33#8) (q := { Latches.empty with lo := d }) (e := .annex progRlaIzy) rfl rfl rfl rfl
  | nopZpx34 d => exact run_of (op := 0x34#8) (q := { Latches.empty with lo := d }) (e := .annex progNopZpx34) rfl rfl rfl rfl
  | andZpx d => exact run_of (op := 0x35#8) (q := { Latches.empty with lo := d }) (e := .documented progAndZpx) rfl rfl rfl rfl
  | rolZpx d => exact run_of (op := 0x36#8) (q := { Latches.empty with lo := d }) (e := .documented progRolZpx) rfl rfl rfl rfl
  | rlaZpx d => exact run_of (op := 0x37#8) (q := { Latches.empty with lo := d }) (e := .annex progRlaZpx) rfl rfl rfl rfl
  | sec => exact run_of (op := 0x38#8) (q := Latches.empty) (e := .documented progSec) rfl rfl rfl rfl
  | andAby a => exact run_of (op := 0x39#8) (q := { Latches.empty with lo := loByte a, hi := hiByte a }) (e := .documented progAndAby) rfl rfl rfl rfl
  | nopImp3A => exact run_of (op := 0x3A#8) (q := Latches.empty) (e := .annex progNopImp3A) rfl rfl rfl rfl
  | rlaAby a => exact run_of (op := 0x3B#8) (q := { Latches.empty with lo := loByte a, hi := hiByte a }) (e := .annex progRlaAby) rfl rfl rfl rfl
  | nopAbx3C a => exact run_of (op := 0x3C#8) (q := { Latches.empty with lo := loByte a, hi := hiByte a }) (e := .annex progNopAbx3C) rfl rfl rfl rfl
  | andAbx a => exact run_of (op := 0x3D#8) (q := { Latches.empty with lo := loByte a, hi := hiByte a }) (e := .documented progAndAbx) rfl rfl rfl rfl
  | rolAbx a => exact run_of (op := 0x3E#8) (q := { Latches.empty with lo := loByte a, hi := hiByte a }) (e := .documented progRolAbx) rfl rfl rfl rfl
  | rlaAbx a => exact run_of (op := 0x3F#8) (q := { Latches.empty with lo := loByte a, hi := hiByte a }) (e := .annex progRlaAbx) rfl rfl rfl rfl
  | rti => exact run_of (op := 0x40#8) (q := Latches.empty) (e := .documented progRti) rfl rfl rfl rfl
  | eorIzx d => exact run_of (op := 0x41#8) (q := { Latches.empty with lo := d }) (e := .documented progEorIzx) rfl rfl rfl rfl
  | jam42 => exact run_of (op := 0x42#8) (q := Latches.empty) (e := .annex progJam42) rfl rfl rfl rfl
  | sreIzx d => exact run_of (op := 0x43#8) (q := { Latches.empty with lo := d }) (e := .annex progSreIzx) rfl rfl rfl rfl
  | nopZp44 d => exact run_of (op := 0x44#8) (q := { Latches.empty with lo := d }) (e := .annex progNopZp44) rfl rfl rfl rfl
  | eorZp d => exact run_of (op := 0x45#8) (q := { Latches.empty with lo := d }) (e := .documented progEorZp) rfl rfl rfl rfl
  | lsrZp d => exact run_of (op := 0x46#8) (q := { Latches.empty with lo := d }) (e := .documented progLsrZp) rfl rfl rfl rfl
  | sreZp d => exact run_of (op := 0x47#8) (q := { Latches.empty with lo := d }) (e := .annex progSreZp) rfl rfl rfl rfl
  | pha => exact run_of (op := 0x48#8) (q := Latches.empty) (e := .documented progPha) rfl rfl rfl rfl
  | eorImm d => exact run_of (op := 0x49#8) (q := { Latches.empty with lo := d }) (e := .documented progEorImm) rfl rfl rfl rfl
  | lsrAcc => exact run_of (op := 0x4A#8) (q := Latches.empty) (e := .documented progLsrAcc) rfl rfl rfl rfl
  | alrImm d => exact run_of (op := 0x4B#8) (q := { Latches.empty with lo := d }) (e := .annex progAlrImm) rfl rfl rfl rfl
  | jmpAbs a => exact run_of (op := 0x4C#8) (q := { Latches.empty with lo := loByte a, hi := hiByte a }) (e := .documented progJmpAbs) rfl rfl rfl rfl
  | eorAbs a => exact run_of (op := 0x4D#8) (q := { Latches.empty with lo := loByte a, hi := hiByte a }) (e := .documented progEorAbs) rfl rfl rfl rfl
  | lsrAbs a => exact run_of (op := 0x4E#8) (q := { Latches.empty with lo := loByte a, hi := hiByte a }) (e := .documented progLsrAbs) rfl rfl rfl rfl
  | sreAbs a => exact run_of (op := 0x4F#8) (q := { Latches.empty with lo := loByte a, hi := hiByte a }) (e := .annex progSreAbs) rfl rfl rfl rfl
  | bvc d => exact run_of (op := 0x50#8) (q := { Latches.empty with lo := d }) (e := .documented progBvc) rfl rfl rfl rfl
  | eorIzy d => exact run_of (op := 0x51#8) (q := { Latches.empty with lo := d }) (e := .documented progEorIzy) rfl rfl rfl rfl
  | jam52 => exact run_of (op := 0x52#8) (q := Latches.empty) (e := .annex progJam52) rfl rfl rfl rfl
  | sreIzy d => exact run_of (op := 0x53#8) (q := { Latches.empty with lo := d }) (e := .annex progSreIzy) rfl rfl rfl rfl
  | nopZpx54 d => exact run_of (op := 0x54#8) (q := { Latches.empty with lo := d }) (e := .annex progNopZpx54) rfl rfl rfl rfl
  | eorZpx d => exact run_of (op := 0x55#8) (q := { Latches.empty with lo := d }) (e := .documented progEorZpx) rfl rfl rfl rfl
  | lsrZpx d => exact run_of (op := 0x56#8) (q := { Latches.empty with lo := d }) (e := .documented progLsrZpx) rfl rfl rfl rfl
  | sreZpx d => exact run_of (op := 0x57#8) (q := { Latches.empty with lo := d }) (e := .annex progSreZpx) rfl rfl rfl rfl
  | cli => exact run_of (op := 0x58#8) (q := Latches.empty) (e := .documented progCli) rfl rfl rfl rfl
  | eorAby a => exact run_of (op := 0x59#8) (q := { Latches.empty with lo := loByte a, hi := hiByte a }) (e := .documented progEorAby) rfl rfl rfl rfl
  | nopImp5A => exact run_of (op := 0x5A#8) (q := Latches.empty) (e := .annex progNopImp5A) rfl rfl rfl rfl
  | sreAby a => exact run_of (op := 0x5B#8) (q := { Latches.empty with lo := loByte a, hi := hiByte a }) (e := .annex progSreAby) rfl rfl rfl rfl
  | nopAbx5C a => exact run_of (op := 0x5C#8) (q := { Latches.empty with lo := loByte a, hi := hiByte a }) (e := .annex progNopAbx5C) rfl rfl rfl rfl
  | eorAbx a => exact run_of (op := 0x5D#8) (q := { Latches.empty with lo := loByte a, hi := hiByte a }) (e := .documented progEorAbx) rfl rfl rfl rfl
  | lsrAbx a => exact run_of (op := 0x5E#8) (q := { Latches.empty with lo := loByte a, hi := hiByte a }) (e := .documented progLsrAbx) rfl rfl rfl rfl
  | sreAbx a => exact run_of (op := 0x5F#8) (q := { Latches.empty with lo := loByte a, hi := hiByte a }) (e := .annex progSreAbx) rfl rfl rfl rfl
  | rts => exact run_of (op := 0x60#8) (q := Latches.empty) (e := .documented progRts) rfl rfl rfl rfl
  | adcIzx d => exact run_of (op := 0x61#8) (q := { Latches.empty with lo := d }) (e := .documented progAdcIzx) rfl rfl rfl rfl
  | jam62 => exact run_of (op := 0x62#8) (q := Latches.empty) (e := .annex progJam62) rfl rfl rfl rfl
  | rraIzx d => exact run_of (op := 0x63#8) (q := { Latches.empty with lo := d }) (e := .annex progRraIzx) rfl rfl rfl rfl
  | nopZp64 d => exact run_of (op := 0x64#8) (q := { Latches.empty with lo := d }) (e := .annex progNopZp64) rfl rfl rfl rfl
  | adcZp d => exact run_of (op := 0x65#8) (q := { Latches.empty with lo := d }) (e := .documented progAdcZp) rfl rfl rfl rfl
  | rorZp d => exact run_of (op := 0x66#8) (q := { Latches.empty with lo := d }) (e := .documented progRorZp) rfl rfl rfl rfl
  | rraZp d => exact run_of (op := 0x67#8) (q := { Latches.empty with lo := d }) (e := .annex progRraZp) rfl rfl rfl rfl
  | pla => exact run_of (op := 0x68#8) (q := Latches.empty) (e := .documented progPla) rfl rfl rfl rfl
  | adcImm d => exact run_of (op := 0x69#8) (q := { Latches.empty with lo := d }) (e := .documented progAdcImm) rfl rfl rfl rfl
  | rorAcc => exact run_of (op := 0x6A#8) (q := Latches.empty) (e := .documented progRorAcc) rfl rfl rfl rfl
  | arrImm d => exact run_of (op := 0x6B#8) (q := { Latches.empty with lo := d }) (e := .annex progArrImm) rfl rfl rfl rfl
  | jmpInd a => exact run_of (op := 0x6C#8) (q := { Latches.empty with lo := loByte a, hi := hiByte a }) (e := .documented progJmpInd) rfl rfl rfl rfl
  | adcAbs a => exact run_of (op := 0x6D#8) (q := { Latches.empty with lo := loByte a, hi := hiByte a }) (e := .documented progAdcAbs) rfl rfl rfl rfl
  | rorAbs a => exact run_of (op := 0x6E#8) (q := { Latches.empty with lo := loByte a, hi := hiByte a }) (e := .documented progRorAbs) rfl rfl rfl rfl
  | rraAbs a => exact run_of (op := 0x6F#8) (q := { Latches.empty with lo := loByte a, hi := hiByte a }) (e := .annex progRraAbs) rfl rfl rfl rfl
  | bvs d => exact run_of (op := 0x70#8) (q := { Latches.empty with lo := d }) (e := .documented progBvs) rfl rfl rfl rfl
  | adcIzy d => exact run_of (op := 0x71#8) (q := { Latches.empty with lo := d }) (e := .documented progAdcIzy) rfl rfl rfl rfl
  | jam72 => exact run_of (op := 0x72#8) (q := Latches.empty) (e := .annex progJam72) rfl rfl rfl rfl
  | rraIzy d => exact run_of (op := 0x73#8) (q := { Latches.empty with lo := d }) (e := .annex progRraIzy) rfl rfl rfl rfl
  | nopZpx74 d => exact run_of (op := 0x74#8) (q := { Latches.empty with lo := d }) (e := .annex progNopZpx74) rfl rfl rfl rfl
  | adcZpx d => exact run_of (op := 0x75#8) (q := { Latches.empty with lo := d }) (e := .documented progAdcZpx) rfl rfl rfl rfl
  | rorZpx d => exact run_of (op := 0x76#8) (q := { Latches.empty with lo := d }) (e := .documented progRorZpx) rfl rfl rfl rfl
  | rraZpx d => exact run_of (op := 0x77#8) (q := { Latches.empty with lo := d }) (e := .annex progRraZpx) rfl rfl rfl rfl
  | sei => exact run_of (op := 0x78#8) (q := Latches.empty) (e := .documented progSei) rfl rfl rfl rfl
  | adcAby a => exact run_of (op := 0x79#8) (q := { Latches.empty with lo := loByte a, hi := hiByte a }) (e := .documented progAdcAby) rfl rfl rfl rfl
  | nopImp7A => exact run_of (op := 0x7A#8) (q := Latches.empty) (e := .annex progNopImp7A) rfl rfl rfl rfl
  | rraAby a => exact run_of (op := 0x7B#8) (q := { Latches.empty with lo := loByte a, hi := hiByte a }) (e := .annex progRraAby) rfl rfl rfl rfl
  | nopAbx7C a => exact run_of (op := 0x7C#8) (q := { Latches.empty with lo := loByte a, hi := hiByte a }) (e := .annex progNopAbx7C) rfl rfl rfl rfl
  | adcAbx a => exact run_of (op := 0x7D#8) (q := { Latches.empty with lo := loByte a, hi := hiByte a }) (e := .documented progAdcAbx) rfl rfl rfl rfl
  | rorAbx a => exact run_of (op := 0x7E#8) (q := { Latches.empty with lo := loByte a, hi := hiByte a }) (e := .documented progRorAbx) rfl rfl rfl rfl
  | rraAbx a => exact run_of (op := 0x7F#8) (q := { Latches.empty with lo := loByte a, hi := hiByte a }) (e := .annex progRraAbx) rfl rfl rfl rfl
  | nopImm80 d => exact run_of (op := 0x80#8) (q := { Latches.empty with lo := d }) (e := .annex progNopImm80) rfl rfl rfl rfl
  | staIzx d => exact run_of (op := 0x81#8) (q := { Latches.empty with lo := d }) (e := .documented progStaIzx) rfl rfl rfl rfl
  | nopImm82 d => exact run_of (op := 0x82#8) (q := { Latches.empty with lo := d }) (e := .annex progNopImm82) rfl rfl rfl rfl
  | saxIzx d => exact run_of (op := 0x83#8) (q := { Latches.empty with lo := d }) (e := .annex progSaxIzx) rfl rfl rfl rfl
  | styZp d => exact run_of (op := 0x84#8) (q := { Latches.empty with lo := d }) (e := .documented progStyZp) rfl rfl rfl rfl
  | staZp d => exact run_of (op := 0x85#8) (q := { Latches.empty with lo := d }) (e := .documented progStaZp) rfl rfl rfl rfl
  | stxZp d => exact run_of (op := 0x86#8) (q := { Latches.empty with lo := d }) (e := .documented progStxZp) rfl rfl rfl rfl
  | saxZp d => exact run_of (op := 0x87#8) (q := { Latches.empty with lo := d }) (e := .annex progSaxZp) rfl rfl rfl rfl
  | dey => exact run_of (op := 0x88#8) (q := Latches.empty) (e := .documented progDey) rfl rfl rfl rfl
  | nopImm89 d => exact run_of (op := 0x89#8) (q := { Latches.empty with lo := d }) (e := .annex progNopImm89) rfl rfl rfl rfl
  | txa => exact run_of (op := 0x8A#8) (q := Latches.empty) (e := .documented progTxa) rfl rfl rfl rfl
  | aneImm d => exact run_of (op := 0x8B#8) (q := { Latches.empty with lo := d }) (e := .unstable) rfl rfl rfl rfl
  | styAbs a => exact run_of (op := 0x8C#8) (q := { Latches.empty with lo := loByte a, hi := hiByte a }) (e := .documented progStyAbs) rfl rfl rfl rfl
  | staAbs a => exact run_of (op := 0x8D#8) (q := { Latches.empty with lo := loByte a, hi := hiByte a }) (e := .documented progStaAbs) rfl rfl rfl rfl
  | stxAbs a => exact run_of (op := 0x8E#8) (q := { Latches.empty with lo := loByte a, hi := hiByte a }) (e := .documented progStxAbs) rfl rfl rfl rfl
  | saxAbs a => exact run_of (op := 0x8F#8) (q := { Latches.empty with lo := loByte a, hi := hiByte a }) (e := .annex progSaxAbs) rfl rfl rfl rfl
  | bcc d => exact run_of (op := 0x90#8) (q := { Latches.empty with lo := d }) (e := .documented progBcc) rfl rfl rfl rfl
  | staIzy d => exact run_of (op := 0x91#8) (q := { Latches.empty with lo := d }) (e := .documented progStaIzy) rfl rfl rfl rfl
  | jam92 => exact run_of (op := 0x92#8) (q := Latches.empty) (e := .annex progJam92) rfl rfl rfl rfl
  | shaIzy d => exact run_of (op := 0x93#8) (q := { Latches.empty with lo := d }) (e := .unstable) rfl rfl rfl rfl
  | styZpx d => exact run_of (op := 0x94#8) (q := { Latches.empty with lo := d }) (e := .documented progStyZpx) rfl rfl rfl rfl
  | staZpx d => exact run_of (op := 0x95#8) (q := { Latches.empty with lo := d }) (e := .documented progStaZpx) rfl rfl rfl rfl
  | stxZpy d => exact run_of (op := 0x96#8) (q := { Latches.empty with lo := d }) (e := .documented progStxZpy) rfl rfl rfl rfl
  | saxZpy d => exact run_of (op := 0x97#8) (q := { Latches.empty with lo := d }) (e := .annex progSaxZpy) rfl rfl rfl rfl
  | tya => exact run_of (op := 0x98#8) (q := Latches.empty) (e := .documented progTya) rfl rfl rfl rfl
  | staAby a => exact run_of (op := 0x99#8) (q := { Latches.empty with lo := loByte a, hi := hiByte a }) (e := .documented progStaAby) rfl rfl rfl rfl
  | txs => exact run_of (op := 0x9A#8) (q := Latches.empty) (e := .documented progTxs) rfl rfl rfl rfl
  | tasAby a => exact run_of (op := 0x9B#8) (q := { Latches.empty with lo := loByte a, hi := hiByte a }) (e := .unstable) rfl rfl rfl rfl
  | shyAbx a => exact run_of (op := 0x9C#8) (q := { Latches.empty with lo := loByte a, hi := hiByte a }) (e := .unstable) rfl rfl rfl rfl
  | staAbx a => exact run_of (op := 0x9D#8) (q := { Latches.empty with lo := loByte a, hi := hiByte a }) (e := .documented progStaAbx) rfl rfl rfl rfl
  | shxAby a => exact run_of (op := 0x9E#8) (q := { Latches.empty with lo := loByte a, hi := hiByte a }) (e := .unstable) rfl rfl rfl rfl
  | shaAby a => exact run_of (op := 0x9F#8) (q := { Latches.empty with lo := loByte a, hi := hiByte a }) (e := .unstable) rfl rfl rfl rfl
  | ldyImm d => exact run_of (op := 0xA0#8) (q := { Latches.empty with lo := d }) (e := .documented progLdyImm) rfl rfl rfl rfl
  | ldaIzx d => exact run_of (op := 0xA1#8) (q := { Latches.empty with lo := d }) (e := .documented progLdaIzx) rfl rfl rfl rfl
  | ldxImm d => exact run_of (op := 0xA2#8) (q := { Latches.empty with lo := d }) (e := .documented progLdxImm) rfl rfl rfl rfl
  | laxIzx d => exact run_of (op := 0xA3#8) (q := { Latches.empty with lo := d }) (e := .annex progLaxIzx) rfl rfl rfl rfl
  | ldyZp d => exact run_of (op := 0xA4#8) (q := { Latches.empty with lo := d }) (e := .documented progLdyZp) rfl rfl rfl rfl
  | ldaZp d => exact run_of (op := 0xA5#8) (q := { Latches.empty with lo := d }) (e := .documented progLdaZp) rfl rfl rfl rfl
  | ldxZp d => exact run_of (op := 0xA6#8) (q := { Latches.empty with lo := d }) (e := .documented progLdxZp) rfl rfl rfl rfl
  | laxZp d => exact run_of (op := 0xA7#8) (q := { Latches.empty with lo := d }) (e := .annex progLaxZp) rfl rfl rfl rfl
  | tay => exact run_of (op := 0xA8#8) (q := Latches.empty) (e := .documented progTay) rfl rfl rfl rfl
  | ldaImm d => exact run_of (op := 0xA9#8) (q := { Latches.empty with lo := d }) (e := .documented progLdaImm) rfl rfl rfl rfl
  | tax => exact run_of (op := 0xAA#8) (q := Latches.empty) (e := .documented progTax) rfl rfl rfl rfl
  | lxaImm d => exact run_of (op := 0xAB#8) (q := { Latches.empty with lo := d }) (e := .unstable) rfl rfl rfl rfl
  | ldyAbs a => exact run_of (op := 0xAC#8) (q := { Latches.empty with lo := loByte a, hi := hiByte a }) (e := .documented progLdyAbs) rfl rfl rfl rfl
  | ldaAbs a => exact run_of (op := 0xAD#8) (q := { Latches.empty with lo := loByte a, hi := hiByte a }) (e := .documented progLdaAbs) rfl rfl rfl rfl
  | ldxAbs a => exact run_of (op := 0xAE#8) (q := { Latches.empty with lo := loByte a, hi := hiByte a }) (e := .documented progLdxAbs) rfl rfl rfl rfl
  | laxAbs a => exact run_of (op := 0xAF#8) (q := { Latches.empty with lo := loByte a, hi := hiByte a }) (e := .annex progLaxAbs) rfl rfl rfl rfl
  | bcs d => exact run_of (op := 0xB0#8) (q := { Latches.empty with lo := d }) (e := .documented progBcs) rfl rfl rfl rfl
  | ldaIzy d => exact run_of (op := 0xB1#8) (q := { Latches.empty with lo := d }) (e := .documented progLdaIzy) rfl rfl rfl rfl
  | jamB2 => exact run_of (op := 0xB2#8) (q := Latches.empty) (e := .annex progJamB2) rfl rfl rfl rfl
  | laxIzy d => exact run_of (op := 0xB3#8) (q := { Latches.empty with lo := d }) (e := .annex progLaxIzy) rfl rfl rfl rfl
  | ldyZpx d => exact run_of (op := 0xB4#8) (q := { Latches.empty with lo := d }) (e := .documented progLdyZpx) rfl rfl rfl rfl
  | ldaZpx d => exact run_of (op := 0xB5#8) (q := { Latches.empty with lo := d }) (e := .documented progLdaZpx) rfl rfl rfl rfl
  | ldxZpy d => exact run_of (op := 0xB6#8) (q := { Latches.empty with lo := d }) (e := .documented progLdxZpy) rfl rfl rfl rfl
  | laxZpy d => exact run_of (op := 0xB7#8) (q := { Latches.empty with lo := d }) (e := .annex progLaxZpy) rfl rfl rfl rfl
  | clv => exact run_of (op := 0xB8#8) (q := Latches.empty) (e := .documented progClv) rfl rfl rfl rfl
  | ldaAby a => exact run_of (op := 0xB9#8) (q := { Latches.empty with lo := loByte a, hi := hiByte a }) (e := .documented progLdaAby) rfl rfl rfl rfl
  | tsx => exact run_of (op := 0xBA#8) (q := Latches.empty) (e := .documented progTsx) rfl rfl rfl rfl
  | lasAby a => exact run_of (op := 0xBB#8) (q := { Latches.empty with lo := loByte a, hi := hiByte a }) (e := .unstable) rfl rfl rfl rfl
  | ldyAbx a => exact run_of (op := 0xBC#8) (q := { Latches.empty with lo := loByte a, hi := hiByte a }) (e := .documented progLdyAbx) rfl rfl rfl rfl
  | ldaAbx a => exact run_of (op := 0xBD#8) (q := { Latches.empty with lo := loByte a, hi := hiByte a }) (e := .documented progLdaAbx) rfl rfl rfl rfl
  | ldxAby a => exact run_of (op := 0xBE#8) (q := { Latches.empty with lo := loByte a, hi := hiByte a }) (e := .documented progLdxAby) rfl rfl rfl rfl
  | laxAby a => exact run_of (op := 0xBF#8) (q := { Latches.empty with lo := loByte a, hi := hiByte a }) (e := .annex progLaxAby) rfl rfl rfl rfl
  | cpyImm d => exact run_of (op := 0xC0#8) (q := { Latches.empty with lo := d }) (e := .documented progCpyImm) rfl rfl rfl rfl
  | cmpIzx d => exact run_of (op := 0xC1#8) (q := { Latches.empty with lo := d }) (e := .documented progCmpIzx) rfl rfl rfl rfl
  | nopImmC2 d => exact run_of (op := 0xC2#8) (q := { Latches.empty with lo := d }) (e := .annex progNopImmC2) rfl rfl rfl rfl
  | dcpIzx d => exact run_of (op := 0xC3#8) (q := { Latches.empty with lo := d }) (e := .annex progDcpIzx) rfl rfl rfl rfl
  | cpyZp d => exact run_of (op := 0xC4#8) (q := { Latches.empty with lo := d }) (e := .documented progCpyZp) rfl rfl rfl rfl
  | cmpZp d => exact run_of (op := 0xC5#8) (q := { Latches.empty with lo := d }) (e := .documented progCmpZp) rfl rfl rfl rfl
  | decZp d => exact run_of (op := 0xC6#8) (q := { Latches.empty with lo := d }) (e := .documented progDecZp) rfl rfl rfl rfl
  | dcpZp d => exact run_of (op := 0xC7#8) (q := { Latches.empty with lo := d }) (e := .annex progDcpZp) rfl rfl rfl rfl
  | iny => exact run_of (op := 0xC8#8) (q := Latches.empty) (e := .documented progIny) rfl rfl rfl rfl
  | cmpImm d => exact run_of (op := 0xC9#8) (q := { Latches.empty with lo := d }) (e := .documented progCmpImm) rfl rfl rfl rfl
  | dex => exact run_of (op := 0xCA#8) (q := Latches.empty) (e := .documented progDex) rfl rfl rfl rfl
  | sbxImm d => exact run_of (op := 0xCB#8) (q := { Latches.empty with lo := d }) (e := .annex progSbxImm) rfl rfl rfl rfl
  | cpyAbs a => exact run_of (op := 0xCC#8) (q := { Latches.empty with lo := loByte a, hi := hiByte a }) (e := .documented progCpyAbs) rfl rfl rfl rfl
  | cmpAbs a => exact run_of (op := 0xCD#8) (q := { Latches.empty with lo := loByte a, hi := hiByte a }) (e := .documented progCmpAbs) rfl rfl rfl rfl
  | decAbs a => exact run_of (op := 0xCE#8) (q := { Latches.empty with lo := loByte a, hi := hiByte a }) (e := .documented progDecAbs) rfl rfl rfl rfl
  | dcpAbs a => exact run_of (op := 0xCF#8) (q := { Latches.empty with lo := loByte a, hi := hiByte a }) (e := .annex progDcpAbs) rfl rfl rfl rfl
  | bne d => exact run_of (op := 0xD0#8) (q := { Latches.empty with lo := d }) (e := .documented progBne) rfl rfl rfl rfl
  | cmpIzy d => exact run_of (op := 0xD1#8) (q := { Latches.empty with lo := d }) (e := .documented progCmpIzy) rfl rfl rfl rfl
  | jamD2 => exact run_of (op := 0xD2#8) (q := Latches.empty) (e := .annex progJamD2) rfl rfl rfl rfl
  | dcpIzy d => exact run_of (op := 0xD3#8) (q := { Latches.empty with lo := d }) (e := .annex progDcpIzy) rfl rfl rfl rfl
  | nopZpxD4 d => exact run_of (op := 0xD4#8) (q := { Latches.empty with lo := d }) (e := .annex progNopZpxD4) rfl rfl rfl rfl
  | cmpZpx d => exact run_of (op := 0xD5#8) (q := { Latches.empty with lo := d }) (e := .documented progCmpZpx) rfl rfl rfl rfl
  | decZpx d => exact run_of (op := 0xD6#8) (q := { Latches.empty with lo := d }) (e := .documented progDecZpx) rfl rfl rfl rfl
  | dcpZpx d => exact run_of (op := 0xD7#8) (q := { Latches.empty with lo := d }) (e := .annex progDcpZpx) rfl rfl rfl rfl
  | cld => exact run_of (op := 0xD8#8) (q := Latches.empty) (e := .documented progCld) rfl rfl rfl rfl
  | cmpAby a => exact run_of (op := 0xD9#8) (q := { Latches.empty with lo := loByte a, hi := hiByte a }) (e := .documented progCmpAby) rfl rfl rfl rfl
  | nopImpDA => exact run_of (op := 0xDA#8) (q := Latches.empty) (e := .annex progNopImpDA) rfl rfl rfl rfl
  | dcpAby a => exact run_of (op := 0xDB#8) (q := { Latches.empty with lo := loByte a, hi := hiByte a }) (e := .annex progDcpAby) rfl rfl rfl rfl
  | nopAbxDC a => exact run_of (op := 0xDC#8) (q := { Latches.empty with lo := loByte a, hi := hiByte a }) (e := .annex progNopAbxDC) rfl rfl rfl rfl
  | cmpAbx a => exact run_of (op := 0xDD#8) (q := { Latches.empty with lo := loByte a, hi := hiByte a }) (e := .documented progCmpAbx) rfl rfl rfl rfl
  | decAbx a => exact run_of (op := 0xDE#8) (q := { Latches.empty with lo := loByte a, hi := hiByte a }) (e := .documented progDecAbx) rfl rfl rfl rfl
  | dcpAbx a => exact run_of (op := 0xDF#8) (q := { Latches.empty with lo := loByte a, hi := hiByte a }) (e := .annex progDcpAbx) rfl rfl rfl rfl
  | cpxImm d => exact run_of (op := 0xE0#8) (q := { Latches.empty with lo := d }) (e := .documented progCpxImm) rfl rfl rfl rfl
  | sbcIzx d => exact run_of (op := 0xE1#8) (q := { Latches.empty with lo := d }) (e := .documented progSbcIzx) rfl rfl rfl rfl
  | nopImmE2 d => exact run_of (op := 0xE2#8) (q := { Latches.empty with lo := d }) (e := .annex progNopImmE2) rfl rfl rfl rfl
  | iscIzx d => exact run_of (op := 0xE3#8) (q := { Latches.empty with lo := d }) (e := .annex progIscIzx) rfl rfl rfl rfl
  | cpxZp d => exact run_of (op := 0xE4#8) (q := { Latches.empty with lo := d }) (e := .documented progCpxZp) rfl rfl rfl rfl
  | sbcZp d => exact run_of (op := 0xE5#8) (q := { Latches.empty with lo := d }) (e := .documented progSbcZp) rfl rfl rfl rfl
  | incZp d => exact run_of (op := 0xE6#8) (q := { Latches.empty with lo := d }) (e := .documented progIncZp) rfl rfl rfl rfl
  | iscZp d => exact run_of (op := 0xE7#8) (q := { Latches.empty with lo := d }) (e := .annex progIscZp) rfl rfl rfl rfl
  | inx => exact run_of (op := 0xE8#8) (q := Latches.empty) (e := .documented progInx) rfl rfl rfl rfl
  | sbcImm d => exact run_of (op := 0xE9#8) (q := { Latches.empty with lo := d }) (e := .documented progSbcImm) rfl rfl rfl rfl
  | nop => exact run_of (op := 0xEA#8) (q := Latches.empty) (e := .documented progNop) rfl rfl rfl rfl
  | usbcImm d => exact run_of (op := 0xEB#8) (q := { Latches.empty with lo := d }) (e := .annex progUsbcImm) rfl rfl rfl rfl
  | cpxAbs a => exact run_of (op := 0xEC#8) (q := { Latches.empty with lo := loByte a, hi := hiByte a }) (e := .documented progCpxAbs) rfl rfl rfl rfl
  | sbcAbs a => exact run_of (op := 0xED#8) (q := { Latches.empty with lo := loByte a, hi := hiByte a }) (e := .documented progSbcAbs) rfl rfl rfl rfl
  | incAbs a => exact run_of (op := 0xEE#8) (q := { Latches.empty with lo := loByte a, hi := hiByte a }) (e := .documented progIncAbs) rfl rfl rfl rfl
  | iscAbs a => exact run_of (op := 0xEF#8) (q := { Latches.empty with lo := loByte a, hi := hiByte a }) (e := .annex progIscAbs) rfl rfl rfl rfl
  | beq d => exact run_of (op := 0xF0#8) (q := { Latches.empty with lo := d }) (e := .documented progBeq) rfl rfl rfl rfl
  | sbcIzy d => exact run_of (op := 0xF1#8) (q := { Latches.empty with lo := d }) (e := .documented progSbcIzy) rfl rfl rfl rfl
  | jamF2 => exact run_of (op := 0xF2#8) (q := Latches.empty) (e := .annex progJamF2) rfl rfl rfl rfl
  | iscIzy d => exact run_of (op := 0xF3#8) (q := { Latches.empty with lo := d }) (e := .annex progIscIzy) rfl rfl rfl rfl
  | nopZpxF4 d => exact run_of (op := 0xF4#8) (q := { Latches.empty with lo := d }) (e := .annex progNopZpxF4) rfl rfl rfl rfl
  | sbcZpx d => exact run_of (op := 0xF5#8) (q := { Latches.empty with lo := d }) (e := .documented progSbcZpx) rfl rfl rfl rfl
  | incZpx d => exact run_of (op := 0xF6#8) (q := { Latches.empty with lo := d }) (e := .documented progIncZpx) rfl rfl rfl rfl
  | iscZpx d => exact run_of (op := 0xF7#8) (q := { Latches.empty with lo := d }) (e := .annex progIscZpx) rfl rfl rfl rfl
  | sed => exact run_of (op := 0xF8#8) (q := Latches.empty) (e := .documented progSed) rfl rfl rfl rfl
  | sbcAby a => exact run_of (op := 0xF9#8) (q := { Latches.empty with lo := loByte a, hi := hiByte a }) (e := .documented progSbcAby) rfl rfl rfl rfl
  | nopImpFA => exact run_of (op := 0xFA#8) (q := Latches.empty) (e := .annex progNopImpFA) rfl rfl rfl rfl
  | iscAby a => exact run_of (op := 0xFB#8) (q := { Latches.empty with lo := loByte a, hi := hiByte a }) (e := .annex progIscAby) rfl rfl rfl rfl
  | nopAbxFC a => exact run_of (op := 0xFC#8) (q := { Latches.empty with lo := loByte a, hi := hiByte a }) (e := .annex progNopAbxFC) rfl rfl rfl rfl
  | sbcAbx a => exact run_of (op := 0xFD#8) (q := { Latches.empty with lo := loByte a, hi := hiByte a }) (e := .documented progSbcAbx) rfl rfl rfl rfl
  | incAbx a => exact run_of (op := 0xFE#8) (q := { Latches.empty with lo := loByte a, hi := hiByte a }) (e := .documented progIncAbx) rfl rfl rfl rfl
  | iscAbx a => exact run_of (op := 0xFF#8) (q := { Latches.empty with lo := loByte a, hi := hiByte a }) (e := .annex progIscAbx) rfl rfl rfl rfl

theorem opEntry_of {i : Instr} {op : Byte} {e : OpEntry} (ho : opByte i = op) (hi : instrEntry i = e)
    (h : opEntry op = e) : opEntry (opByte i) = instrEntry i := by
  rw [ho, hi, h]

/-- The table of the clock step has the same entry under the instruction's opcode byte. -/
theorem opEntry_opByte (i : Instr) : opEntry (opByte i) = instrEntry i := by
  cases i with
  | brk => exact opEntry_of (op := 0x00#8) rfl rfl rfl
  | oraIzx d => exact opEntry_of (op := 0x01#8) rfl rfl rfl
  | jam02 => exact opEntry_of (op := 0x02#8) rfl rfl rfl
  | sloIzx d => exact opEntry_of (op := 0x03#8) rfl rfl rfl
  | nopZp04 d => exact opEntry_of (op := 0x04#8) rfl rfl rfl
  | oraZp d => exact opEntry_of (op := 0x05#8) rfl rfl rfl
  | aslZp d => exact opEntry_of (op := 0x06#8) rfl rfl rfl
  | sloZp d => exact opEntry_of (op := 0x07#8) rfl rfl rfl
  | php => exact opEntry_of (op := 0x08#8) rfl rfl rfl
  | oraImm d => exact opEntry_of (op := 0x09#8) rfl rfl rfl
  | aslAcc => exact opEntry_of (op := 0x0A#8) rfl rfl rfl
  | ancImm0B d => exact opEntry_of (op := 0x0B#8) rfl rfl rfl
  | nopAbs0C a => exact opEntry_of (op := 0x0C#8) rfl rfl rfl
  | oraAbs a => exact opEntry_of (op := 0x0D#8) rfl rfl rfl
  | aslAbs a => exact opEntry_of (op := 0x0E#8) rfl rfl rfl
  | sloAbs a => exact opEntry_of (op := 0x0F#8) rfl rfl rfl
  | bpl d => exact opEntry_of (op := 0x10#8) rfl rfl rfl
  | oraIzy d => exact opEntry_of (op := 0x11#8) rfl rfl rfl
  | jam12 => exact opEntry_of (op := 0x12#8) rfl rfl rfl
  | sloIzy d => exact opEntry_of (op := 0x13#8) rfl rfl rfl
  | nopZpx14 d => exact opEntry_of (op := 0x14#8) rfl rfl rfl
  | oraZpx d => exact opEntry_of (op := 0x15#8) rfl rfl rfl
  | aslZpx d => exact opEntry_of (op := 0x16#8) rfl rfl rfl
  | sloZpx d => exact opEntry_of (op := 0x17#8) rfl rfl rfl
  | clc => exact opEntry_of (op := 0x18#8) rfl rfl rfl
  | oraAby a => exact opEntry_of (op := 0x19#8) rfl rfl rfl
  | nopImp1A => exact opEntry_of (op := 0x1A#8) rfl rfl rfl
  | sloAby a => exact opEntry_of (op := 0x1B#8) rfl rfl rfl
  | nopAbx1C a => exact opEntry_of (op := 0x1C#8) rfl rfl rfl
  | oraAbx a => exact opEntry_of (op := 0x1D#8) rfl rfl rfl
  | aslAbx a => exact opEntry_of (op := 0x1E#8) rfl rfl rfl
  | sloAbx a => exact opEntry_of (op := 0x1F#8) rfl rfl rfl
  | jsr a => exact opEntry_of (op := 0x20#8) rfl rfl rfl
  | andIzx d => exact opEntry_of (op := 0x21#8) rfl rfl rfl
  | jam22 => exact opEntry_of (op := 0x22#8) rfl rfl rfl
  | rlaIzx d => exact opEntry_of (op := 0x23#8) rfl rfl rfl
  | bitZp d => exact opEntry_of (op := 0x24#8) rfl rfl rfl
  | andZp d => exact opEntry_of (op := 0x25#8) rfl rfl rfl
  | rolZp d => exact opEntry_of (op := 0x26#8) rfl rfl rfl
  | rlaZp d => exact opEntry_of (op := 0x27#8) rfl rfl rfl
  | plp => exact opEntry_of (op := 0x28#8) rfl rfl rfl
  | andImm d => exact opEntry_of (op := 0x29#8) rfl rfl rfl
  | rolAcc => exact opEntry_of (op := 0x2A#8) rfl rfl rfl
  | ancImm2B d => exact opEntry_of (op := 0x2B#8) rfl rfl rfl
  | bitAbs a => exact opEntry_of (op := 0x2C#8) rfl rfl rfl
  | andAbs a => exact opEntry_of (op := 0x2D#8) rfl rfl rfl
  | rolAbs a => exact opEntry_of (op := 0x2E#8) rfl rfl rfl
  | rlaAbs a => exact opEntry_of (op := 0x2F#8) rfl rfl rfl
  | bmi d => exact opEntry_of (op := 0x30#8) rfl rfl rfl
  | andIzy d => exact opEntry_of (op := 0x31#8) rfl rfl rfl
  | jam32 => exact opEntry_of (op := 0x32#8) rfl rfl rfl
  | rlaIzy d => exact opEntry_of (op := 0x33#8) rfl rfl rfl
  | nopZpx34 d => exact opEntry_of (op := 0x34#8) rfl rfl rfl
  | andZpx d => exact opEntry_of (op := 0x35#8) rfl rfl rfl
  | rolZpx d => exact opEntry_of (op := 0x36#8) rfl rfl rfl
  | rlaZpx d => exact opEntry_of (op := 0x37#8) rfl rfl rfl
  | sec => exact opEntry_of (op := 0x38#8) rfl rfl rfl
  | andAby a => exact opEntry_of (op := 0x39#8) rfl rfl rfl
  | nopImp3A => exact opEntry_of (op := 0x3A#8) rfl rfl rfl
  | rlaAby a => exact opEntry_of (op := 0x3B#8) rfl rfl rfl
  | nopAbx3C a => exact opEntry_of (op := 0x3C#8) rfl rfl rfl
  | andAbx a => exact opEntry_of (op := 0x3D#8) rfl rfl rfl
  | rolAbx a => exact opEntry_of (op := 0x3E#8) rfl rfl rfl
  | rlaAbx a => exact opEntry_of (op := 0x3F#8) rfl rfl rfl
  | rti => exact opEntry_of (op := 0x40#8) rfl rfl rfl
  | eorIzx d => exact opEntry_of (op := 0x41#8) rfl rfl rfl
  | jam42 => exact opEntry_of (op := 0x42#8) rfl rfl rfl
  | sreIzx d => exact opEntry_of (op := 0x43#8) rfl rfl rfl
  | nopZp44 d => exact opEntry_of (op := 0x44#8) rfl rfl rfl
  | eorZp d => exact opEntry_of (op := 0x45#8) rfl rfl rfl
  | lsrZp d => exact opEntry_of (op := 0x46#8) rfl rfl rfl
  | sreZp d => exact opEntry_of (op := 0x47#8) rfl rfl rfl
  | pha => exact opEntry_of (op := 0x48#8) rfl rfl rfl
  | eorImm d => exact opEntry_of (op := 0x49#8) rfl rfl rfl
  | lsrAcc => exact opEntry_of (op := 0x4A#8) rfl rfl rfl
  | alrImm d => exact opEntry_of (op := 0x4B#8) rfl rfl rfl
  | jmpAbs a => exact opEntry_of (op := 0x4C#8) rfl rfl rfl
  | eorAbs a => exact opEntry_of (op := 0x4D#8) rfl rfl rfl
  | lsrAbs a => exact opEntry_of (op := 0x4E#8) rfl rfl rfl
  | sreAbs a => exact opEntry_of (op := 0x4F#8) rfl rfl rfl
  | bvc d => exact opEntry_of (op := 0x50#8) rfl rfl rfl
  | eorIzy d => exact opEntry_of (op := 0x51#8) rfl rfl rfl
  | jam52 => exact opEntry_of (op := 0x52#8) rfl rfl rfl
  | sreIzy d => exact opEntry_of (op := 0x53#8) rfl rfl rfl
  | nopZpx54 d => exact opEntry_of (op := 0x54#8) rfl rfl rfl
  | eorZpx d => exact opEntry_of (op := 0x55#8) rfl rfl rfl
  | lsrZpx d => exact opEntry_of (op := 0x56#8) rfl rfl rfl
  | sreZpx d => exact opEntry_of (op := 0x57#8) rfl rfl rfl
  | cli => exact opEntry_of (op := 0x58#8) rfl rfl rfl
  | eorAby a => exact opEntry_of (op := 0x59#8) rfl rfl rfl
  | nopImp5A => exact opEntry_of (op := 0x5A#8) rfl rfl rfl
  | sreAby a => exact opEntry_of (op := 0x5B#8) rfl rfl rfl
  | nopAbx5C a => exact opEntry_of (op := 0x5C#8) rfl rfl rfl
  | eorAbx a => exact opEntry_of (op := 0x5D#8) rfl rfl rfl
  | lsrAbx a => exact opEntry_of (op := 0x5E#8) rfl rfl rfl
  | sreAbx a => exact opEntry_of (op := 0x5F#8) rfl rfl rfl
  | rts => exact opEntry_of (op := 0x60#8) rfl rfl rfl
  | adcIzx d => exact opEntry_of (op := 0x61#8) rfl rfl rfl
  | jam62 => exact opEntry_of (op := 0x62#8) rfl rfl rfl
  | rraIzx d => exact opEntry_of (op := 0x63#8) rfl rfl rfl
  | nopZp64 d => exact opEntry_of (op := 0x64#8) rfl rfl rfl
  | adcZp d => exact opEntry_of (op := 0x65#8) rfl rfl rfl
  | rorZp d => exact opEntry_of (op := 0x66#8) rfl rfl rfl
  | rraZp d => exact opEntry_of (op := 0x67#8) rfl rfl rfl
  | pla => exact opEntry_of (op := 0x68#8) rfl rfl rfl
  | adcImm d => exact opEntry_of (op := 0x69#8) rfl rfl rfl
  | rorAcc => exact opEntry_of (op := 0x6A#8) rfl rfl rfl
  | arrImm d => exact opEntry_of (op := 0x6B#8) rfl rfl rfl
  | jmpInd a => exact opEntry_of (op := 0x6C#8) rfl rfl rfl
  | adcAbs a => exact opEntry_of (op := 0x6D#8) rfl rfl rfl
  | rorAbs a => exact opEntry_of (op := 0x6E#8) rfl rfl rfl
  | rraAbs a => exact opEntry_of (op := 0x6F#8) rfl rfl rfl
  | bvs d => exact opEntry_of (op := 0x70#8) rfl rfl rfl
  | adcIzy d => exact opEntry_of (op := 0x71#8) rfl rfl rfl
  | jam72 => exact opEntry_of (op := 0x72#8) rfl rfl rfl
  | rraIzy d => exact opEntry_of (op := 0x73#8) rfl rfl rfl
  | nopZpx74 d => exact opEntry_of (op := 0x74#8) rfl rfl rfl
  | adcZpx d => exact opEntry_of (op := 0x75#8) rfl rfl rfl
  | rorZpx d => exact opEntry_of (op := 0x76#8) rfl rfl rfl
  | rraZpx d => exact opEntry_of (op := 0x77#8) rfl rfl rfl
  | sei => exact opEntry_of (op := 0x78#8) rfl rfl rfl
  | adcAby a => exact opEntry_of (op := 0x79#8) rfl rfl rfl
  | nopImp7A => exact opEntry_of (op := 0x7A#8) rfl rfl rfl
  | rraAby a => exact opEntry_of (op := 0x7B#8) rfl rfl rfl
  | nopAbx7C a => exact opEntry_of (op := 0x7C#8) rfl rfl rfl
  | adcAbx a => exact opEntry_of (op := 0x7D#8) rfl rfl rfl
  | rorAbx a => exact opEntry_of (op := 0x7E#8) rfl rfl rfl
  | rraAbx a => exact opEntry_of (op := 0x7F#8) rfl rfl rfl
  | nopImm80 d => exact opEntry_of (op := 0x80#8) rfl rfl rfl
  | staIzx d => exact opEntry_of (op := 0x81#8) rfl rfl rfl
  | nopImm82 d => exact opEntry_of (op := 0x82#8) rfl rfl rfl
  | saxIzx d => exact opEntry_of (op := 0x83#8) rfl rfl rfl
  | styZp d => exact opEntry_of (op := 0x84#8) rfl rfl rfl
  | staZp d => exact opEntry_of (op := 0x85#8) rfl rfl rfl
  | stxZp d => exact opEntry_of (op := 0x86#8) rfl rfl rfl
  | saxZp d => exact opEntry_of (op := 0x87#8) rfl rfl rfl
  | dey => exact opEntry_of (op := 0x88#8) rfl rfl rfl
  | nopImm89 d => exact opEntry_of (op := 0x89#8) rfl rfl rfl
  | txa => exact opEntry_of (op := 0x8A#8) rfl rfl rfl
  | aneImm d => exact opEntry_of (op := 0x8B#8) rfl rfl rfl
  | styAbs a => exact opEntry_of (op := 0x8C#8) rfl rfl rfl
  | staAbs a => exact opEntry_of (op := 0x8D#8) rfl rfl rfl
  | stxAbs a => exact opEntry_of (op := 0x8E#8) rfl rfl rfl
  | saxAbs a => exact opEntry_of (op := 0x8F#8) rfl rfl rfl
  | bcc d => exact opEntry_of (op := 0x90#8) rfl rfl rfl
  | staIzy d => exact opEntry_of (op := 0x91#8) rfl rfl rfl
  | jam92 => exact opEntry_of (op := 0x92#8) rfl rfl rfl
  | shaIzy d => exact opEntry_of (op := 0x93#8) rfl rfl rfl
  | styZpx d => exact opEntry_of (op := 0x94#8) rfl rfl rfl
  | staZpx d => exact opEntry_of (op := 0x95#8) rfl rfl rfl
  | stxZpy d => exact opEntry_of (op := 0x96#8) rfl rfl rfl
  | saxZpy d => exact opEntry_of (op := 0x97#8) rfl rfl rfl
  | tya => exact opEntry_of (op := 0x98#8) rfl rfl rfl
  | staAby a => exact opEntry_of (op := 0x99#8) rfl rfl rfl
  | txs => exact opEntry_of (op := 0x9A#8) rfl rfl rfl
  | tasAby a => exact opEntry_of (op := 0x9B#8) rfl rfl rfl
  | shyAbx a => exact opEntry_of (op := 0x9C#8) rfl rfl rfl
  | staAbx a => exact opEntry_of (op := 0x9D#8) rfl rfl rfl
  | shxAby a => exact opEntry_of (op := 0x9E#8) rfl rfl rfl
  | shaAby a => exact opEntry_of (op := 0x9F#8) rfl rfl rfl
  | ldyImm d => exact opEntry_of (op := 0xA0#8) rfl rfl rfl
  | ldaIzx d => exact opEntry_of (op := 0xA1#8) rfl rfl rfl
  | ldxImm d => exact opEntry_of (op := 0xA2#8) rfl rfl rfl
  | laxIzx d => exact opEntry_of (op := 0xA3#8) rfl rfl rfl
  | ldyZp d => exact opEntry_of (op := 0xA4#8) rfl rfl rfl
  | ldaZp d => exact opEntry_of (op := 0xA5#8) rfl rfl rfl
  | ldxZp d => exact opEntry_of (op := 0xA6#8) rfl rfl rfl
  | laxZp d => exact opEntry_of (op := 0xA7#8) rfl rfl rfl
  | tay => exact opEntry_of (op := 0xA8#8) rfl rfl rfl
  | ldaImm d => exact opEntry_of (op := 0xA9#8) rfl rfl rfl
  | tax => exact opEntry_of (op := 0xAA#8) rfl rfl rfl
  | lxaImm d => exact opEntry_of (op := 0xAB#8) rfl rfl rfl
  | ldyAbs a => exact opEntry_of (op := 0xAC#8) rfl rfl rfl
  | ldaAbs a => exact opEntry_of (op := 0xAD#8) rfl rfl rfl
  | ldxAbs a => exact opEntry_of (op := 0xAE#8) rfl rfl rfl
  | laxAbs a => exact opEntry_of (op := 0xAF#8) rfl rfl rfl
  | bcs d => exact opEntry_of (op := 0xB0#8) rfl rfl rfl
  | ldaIzy d => exact opEntry_of (op := 0xB1#8) rfl rfl rfl
  | jamB2 => exact opEntry_of (op := 0xB2#8) rfl rfl rfl
  | laxIzy d => exact opEntry_of (op := 0xB3#8) rfl rfl rfl
  | ldyZpx d => exact opEntry_of (op := 0xB4#8) rfl rfl rfl
  | ldaZpx d => exact opEntry_of (op := 0xB5#8) rfl rfl rfl
  | ldxZpy d => exact opEntry_of (op := 0xB6#8) rfl rfl rfl
  | laxZpy d => exact opEntry_of (op := 0xB7#8) rfl rfl rfl
  | clv => exact opEntry_of (op := 0xB8#8) rfl rfl rfl
  | ldaAby a => exact opEntry_of (op := 0xB9#8) rfl rfl rfl
  | tsx => exact opEntry_of (op := 0xBA#8) rfl rfl rfl
  | lasAby a => exact opEntry_of (op := 0xBB#8) rfl rfl rfl
  | ldyAbx a => exact opEntry_of (op := 0xBC#8) rfl rfl rfl
  | ldaAbx a => exact opEntry_of (op := 0xBD#8) rfl rfl rfl
  | ldxAby a => exact opEntry_of (op := 0xBE#8) rfl rfl rfl
  | laxAby a => exact opEntry_of (op := 0xBF#8) rfl rfl rfl
  | cpyImm d => exact opEntry_of (op := 0xC0#8) rfl rfl rfl
  | cmpIzx d => exact opEntry_of (op := 0xC1#8) rfl rfl rfl
  | nopImmC2 d => exact opEntry_of (op := 0xC2#8) rfl rfl rfl
  | dcpIzx d => exact opEntry_of (op := 0xC3#8) rfl rfl rfl
  | cpyZp d => exact opEntry_of (op := 0xC4#8) rfl rfl rfl
  | cmpZp d => exact opEntry_of (op := 0xC5#8) rfl rfl rfl
  | decZp d => exact opEntry_of (op := 0xC6#8) rfl rfl rfl
  | dcpZp d => exact opEntry_of (op := 0xC7#8) rfl rfl rfl
  | iny => exact opEntry_of (op := 0xC8#8) rfl rfl rfl
  | cmpImm d => exact opEntry_of (op := 0xC9#8) rfl rfl rfl
  | dex => exact opEntry_of (op := 0xCA#8) rfl rfl rfl
  | sbxImm d => exact opEntry_of (op := 0xCB#8) rfl rfl rfl
  | cpyAbs a => exact opEntry_of (op := 0xCC#8) rfl rfl rfl
  | cmpAbs a => exact opEntry_of (op := 0xCD#8) rfl rfl rfl
  | decAbs a => exact opEntry_of (op := 0xCE#8) rfl rfl rfl
  | dcpAbs a => exact opEntry_of (op := 0xCF#8) rfl rfl rfl
  | bne d => exact opEntry_of (op := 0xD0#8) rfl rfl rfl
  | cmpIzy d => exact opEntry_of (op := 0xD1#8) rfl rfl rfl
  | jamD2 => exact opEntry_of (op := 0xD2#8) rfl rfl rfl
  | dcpIzy d => exact opEntry_of (op := 0xD3#8) rfl rfl rfl
  | nopZpxD4 d => exact opEntry_of (op := 0xD4#8) rfl rfl rfl
  | cmpZpx d => exact opEntry_of (op := 0xD5#8) rfl rfl rfl
  | decZpx d => exact opEntry_of (op := 0xD6#8) rfl rfl rfl
  | dcpZpx d => exact opEntry_of (op := 0xD7#8) rfl rfl rfl
  | cld => exact opEntry_of (op := 0xD8#8) rfl rfl rfl
  | cmpAby a => exact opEntry_of (op := 0xD9#8) rfl rfl rfl
  | nopImpDA => exact opEntry_of (op := 0xDA#8) rfl rfl rfl
  | dcpAby a => exact opEntry_of (op := 0xDB#8) rfl rfl rfl
  | nopAbxDC a => exact opEntry_of (op := 0xDC#8) rfl rfl rfl
  | cmpAbx a => exact opEntry_of (op := 0xDD#8) rfl rfl rfl
  | decAbx a => exact opEntry_of (op := 0xDE#8) rfl rfl rfl
  | dcpAbx a => exact opEntry_of (op := 0xDF#8) rfl rfl rfl
  | cpxImm d => exact opEntry_of (op := 0xE0#8) rfl rfl rfl
  | sbcIzx d => exact opEntry_of (op := 0xE1#8) rfl rfl rfl
  | nopImmE2 d => exact opEntry_of (op := 0xE2#8) rfl rfl rfl
  | iscIzx d => exact opEntry_of (op := 0xE3#8) rfl rfl rfl
  | cpxZp d => exact opEntry_of (op := 0xE4#8) rfl rfl rfl
  | sbcZp d => exact opEntry_of (op := 0xE5#8) rfl rfl rfl
  | incZp d => exact opEntry_of (op := 0xE6#8) rfl rfl rfl
  | iscZp d => exact opEntry_of (op := 0xE7#8) rfl rfl rfl
  | inx => exact opEntry_of (op := 0xE8#8) rfl rfl rfl
  | sbcImm d => exact opEntry_of (op := 0xE9#8) rfl rfl rfl
  | nop => exact opEntry_of (op := 0xEA#8) rfl rfl rfl
  | usbcImm d => exact opEntry_of (op := 0xEB#8) rfl rfl rfl
  | cpxAbs a => exact opEntry_of (op := 0xEC#8) rfl rfl rfl
  | sbcAbs a => exact opEntry_of (op := 0xED#8) rfl rfl rfl
  | incAbs a => exact opEntry_of (op := 0xEE#8) rfl rfl rfl
  | iscAbs a => exact opEntry_of (op := 0xEF#8) rfl rfl rfl
  | beq d => exact opEntry_of (op := 0xF0#8) rfl rfl rfl
  | sbcIzy d => exact opEntry_of (op := 0xF1#8) rfl rfl rfl
  | jamF2 => exact opEntry_of (op := 0xF2#8) rfl rfl rfl
  | iscIzy d => exact opEntry_of (op := 0xF3#8) rfl rfl rfl
  | nopZpxF4 d => exact opEntry_of (op := 0xF4#8) rfl rfl rfl
  | sbcZpx d => exact opEntry_of (op := 0xF5#8) rfl rfl rfl
  | incZpx d => exact opEntry_of (op := 0xF6#8) rfl rfl rfl
  | iscZpx d => exact opEntry_of (op := 0xF7#8) rfl rfl rfl
  | sed => exact opEntry_of (op := 0xF8#8) rfl rfl rfl
  | sbcAby a => exact opEntry_of (op := 0xF9#8) rfl rfl rfl
  | nopImpFA => exact opEntry_of (op := 0xFA#8) rfl rfl rfl
  | iscAby a => exact opEntry_of (op := 0xFB#8) rfl rfl rfl
  | nopAbxFC a => exact opEntry_of (op := 0xFC#8) rfl rfl rfl
  | sbcAbx a => exact opEntry_of (op := 0xFD#8) rfl rfl rfl
  | incAbx a => exact opEntry_of (op := 0xFE#8) rfl rfl rfl
  | iscAbx a => exact opEntry_of (op := 0xFF#8) rfl rfl rfl

end Sys2Proof.Machine
end

