-- ==== Sys2Proof/Laws/Queue.lean ====
section
/-! SUPPORT. The laws of the delay queue's pieces (50_delay_queue.md): what each does to a slot and to `where`, and that
removing a stale pair and appending a new one keep the invariants of R43. -/

namespace Sys2Proof.Machine

/-- Writing a slot. -/
theorem DelayQueue.slot_set (q : DelayQueue) {i : Nat} (hi : i < q.slots.length) (l : List (Nat × Byte)) (w : List (Nat × Nat))
    (n j : Nat) :
    DelayQueue.slot j { q with slots := q.slots.set i l, whereIs := w, next := n } = if j = i then l else q.slot j := by
  unfold DelayQueue.slot
  simp only [List.getD_eq_getElem?_getD, List.getElem?_set]
  by_cases h : j = i
  · subst h
    simp [hi]
  · simp [h, Ne.symm h]

/-- What `where` says of a listed pair. -/
theorem DelayQueue.Inv.where_eq {q : DelayQueue} (h : q.Inv) {i : Nat} (hi : i < q.depth) {p : Nat × Byte}
    (hp : p ∈ q.slot i) : tableGet q.whereIs p.1 = some i :=
  ((h.2.2.2.2.1 i (List.mem_range.mpr hi)).2.2 p hp).2

/-- A slot that `where` names is a slot of the ring, and it holds the destination. -/
theorem DelayQueue.Inv.mem_slot {q : DelayQueue} (h : q.Inv) {d i : Nat} (hw : tableGet q.whereIs d = some i) :
    i < q.depth ∧ d ∈ (q.slot i).map Prod.fst :=
  h.2.2.2.2.2 (d, i) (mem_of_tableGet hw)

/-- Slot `j` after the removal of a destination's stale pair (R304). -/
theorem DelayQueue.Inv.slot_cancel {q : DelayQueue} (h : q.Inv) (d j : Nat) :
    (q.cancel d).slot j = (q.slot j).filter (fun p => p.1 != d) ∨ (q.depth ≤ j ∧ (q.cancel d).slot j = q.slot j) := by
  by_cases hj : j < q.depth
  · left
    unfold DelayQueue.cancel
    cases hw : tableGet q.whereIs d with
    | none =>
      refine (List.filter_eq_self.mpr fun p hp => ?_).symm
      simp only [bne_iff_ne, ne_eq]
      intro e
      have := h.where_eq hj hp
      rw [e, hw] at this
      cases this
    | some i =>
      have hi : i < q.slots.length := h.1 ▸ (h.mem_slot hw).1
      dsimp only
      rw [DelayQueue.slot_set q hi]
      split
      · rename_i e; rw [e]
      · rename_i e
        refine (List.filter_eq_self.mpr fun p hp => ?_).symm
        simp only [bne_iff_ne, ne_eq]
        intro e'
        have := h.where_eq hj hp
        rw [e', hw] at this
        exact e (Option.some.inj this).symm
  · right
    refine ⟨Nat.le_of_not_lt hj, ?_⟩
    unfold DelayQueue.cancel
    cases hw : tableGet q.whereIs d with
    | none => rfl
    | some i =>
      have hi := (h.mem_slot hw).1
      dsimp only
      rw [DelayQueue.slot_set q (h.1 ▸ hi), if_neg (by omega)]

/-- After the removal no slot is pending for the destination (R302, R304). -/
theorem DelayQueue.where_cancel (q : DelayQueue) (d : Nat) : tableGet (q.cancel d).whereIs d = none := by
  unfold DelayQueue.cancel
  cases hw : tableGet q.whereIs d with
  | none => exact hw
  | some i => exact tableGet_erase_self _ _

@[simp] theorem DelayQueue.cancel_depth (q : DelayQueue) (d : Nat) : (q.cancel d).depth = q.depth := by
  unfold DelayQueue.cancel; cases tableGet q.whereIs d <;> rfl
@[simp] theorem DelayQueue.cancel_capacity (q : DelayQueue) (d : Nat) : (q.cancel d).capacity = q.capacity := by
  unfold DelayQueue.cancel; cases tableGet q.whereIs d <;> rfl
@[simp] theorem DelayQueue.cancel_dests (q : DelayQueue) (d : Nat) : (q.cancel d).dests = q.dests := by
  unfold DelayQueue.cancel; cases tableGet q.whereIs d <;> rfl
@[simp] theorem DelayQueue.cancel_next (q : DelayQueue) (d : Nat) : (q.cancel d).next = q.next := by
  unfold DelayQueue.cancel; cases tableGet q.whereIs d <;> rfl

/-- Removing a stale pair keeps the invariants (R304). -/
theorem DelayQueue.Inv.cancel {q : DelayQueue} (h : q.Inv) (d : Nat) : (q.cancel d).Inv := by
  cases hw : tableGet q.whereIs d with
  | none => unfold DelayQueue.cancel; rw [hw]; exact h
  | some i =>
    obtain ⟨hlen, hnext, hcap, hrise, hslot, hwh⟩ := h
    have hi : i < q.depth := (hwh _ (mem_of_tableGet hw)).1
    unfold DelayQueue.cancel
    rw [hw]
    have hset := fun j => DelayQueue.slot_set q (hlen ▸ hi : i < q.slots.length)
      ((q.slot i).filter (fun p => p.1 != d)) (tableErase q.whereIs d) q.next j
    refine ⟨by simpa using hlen, hnext, hcap, tableRising_erase _ hrise, fun j hj => ?_, fun p hp => ?_⟩
    · have hj' := hslot j hj
      dsimp only
      rw [hset j]
      split
      · rename_i e
        subst e
        refine ⟨Nat.le_trans (List.length_filter_le _ _) hj'.1, hj'.2.1.sublist (List.Sublist.map _ List.filter_sublist),
          fun p hp => ?_⟩
        simp only [List.mem_filter, bne_iff_ne] at hp
        exact ⟨(hj'.2.2 p hp.1).1, by rw [tableGet_erase_other _ hp.2]; exact (hj'.2.2 p hp.1).2⟩
      · rename_i e
        refine ⟨hj'.1, hj'.2.1, fun p hp => ⟨(hj'.2.2 p hp).1, ?_⟩⟩
        have hp' := (hj'.2.2 p hp).2
        rw [tableGet_erase_other]
        · exact hp'
        · intro e'
          rw [e', hw] at hp'
          exact e (Option.some.inj hp').symm
    · dsimp only at hp
      obtain ⟨hp₁, hp₂⟩ := mem_tableErase hp
      refine ⟨(hwh p hp₁).1, ?_⟩
      rw [hset p.2]
      split
      · rename_i e
        have := (hwh p hp₁).2
        rw [e] at this
        simp only [List.mem_map, List.mem_filter, bne_iff_ne] at this ⊢
        obtain ⟨x, hx, hxp⟩ := this
        exact ⟨x, ⟨hx, hxp ▸ hp₂⟩, hxp⟩
      · exact (hwh p hp₁).2

/-- Appending a pair to a slot with room, for a destination that is not pending, keeps the invariants (R302). -/
theorem DelayQueue.Inv.append {q : DelayQueue} (h : q.Inv) {d j : Nat} (v : Byte) (hd : d ∈ q.dests)
    (hw : tableGet q.whereIs d = none) (hj : j < q.depth) (hroom : (q.slot j).length < q.capacity) :
    (q.append d v j).Inv := by
  obtain ⟨hlen, hnext, hcap, hrise, hslot, hwh⟩ := h
  have hne : ∀ k ∈ List.range q.depth, ∀ p ∈ q.slot k, p.1 ≠ d := fun k hk p hp e => by
    have := ((hslot k hk).2.2 p hp).2
    rw [e, hw] at this
    cases this
  unfold DelayQueue.append
  have hset := fun k => DelayQueue.slot_set q (hlen ▸ hj : j < q.slots.length) (q.slot j ++ [(d, v)])
    (tableSet q.whereIs d j) q.next k
  refine ⟨by simpa using hlen, hnext, hcap, tableRising_set _ _ hrise, fun k hk => ?_, fun p hp => ?_⟩
  · have hk' := hslot k hk
    dsimp only
    rw [hset k]
    split
    · rename_i e
      subst e
      refine ⟨by simp; omega, ?_, fun p hp => ?_⟩
      · rw [List.map_append, List.nodup_append]
        refine ⟨hk'.2.1, by simp, fun a ha b hb => ?_⟩
        simp only [List.mem_map] at ha
        obtain ⟨p, hp, rfl⟩ := ha
        simp only [List.map_cons, List.map_nil, List.mem_singleton] at hb
        exact hb ▸ hne k hk p hp
      · rcases List.mem_append.mp hp with hp | hp
        · exact ⟨(hk'.2.2 p hp).1, by rw [tableGet_set_other _ _ (hne k hk p hp)]; exact (hk'.2.2 p hp).2⟩
        · simp only [List.mem_singleton] at hp
          subst hp
          exact ⟨hd, tableGet_set_self _ _ _⟩
    · exact ⟨hk'.1, hk'.2.1, fun p hp => ⟨(hk'.2.2 p hp).1, by
        rw [tableGet_set_other _ _ (hne k hk p hp)]; exact (hk'.2.2 p hp).2⟩⟩
  · dsimp only at hp
    rcases mem_tableSet hp with hp | hp
    · subst hp
      exact ⟨hj, by dsimp only; rw [hset j]; simp⟩
    · refine ⟨(hwh p hp).1, ?_⟩
      rw [hset p.2]
      split
      · rename_i e
        rw [List.map_append, List.mem_append, ← e]
        exact .inl (hwh p hp).2
      · exact (hwh p hp).2

/-- A push that does not halt the block (R302): the stale pair removed, the new one appended. -/
theorem DelayQueue.push_cases {q t : DelayQueue} {d delay : Nat} {v : Byte} (h : q.push d v delay = .ok t) :
    delay < q.depth ∧ d ∈ q.dests ∧ ((q.cancel d).slot ((q.next + delay) % q.depth)).length < q.capacity ∧
      t = (q.cancel d).append d v ((q.next + delay) % q.depth) := by
  unfold DelayQueue.push at h
  split at h
  · cases h
  · rename_i hb
    simp only [not_or, Nat.not_le, not_not] at hb
    dsimp only at h
    simp only [DelayQueue.cancel_next, DelayQueue.cancel_depth, DelayQueue.cancel_capacity] at h
    split at h
    · cases h
    · rename_i hc
      cases h
      exact ⟨hb.1, hb.2, Nat.lt_of_not_le hc, rfl⟩

/-- Forgetting the destinations of a list of pairs. -/
theorem tableGet_foldl_erase (l : List (Nat × Byte)) (w : List (Nat × Nat)) (k : Nat) :
    tableGet (l.foldl (fun w p => tableErase w p.1) w) k = if k ∈ l.map Prod.fst then none else tableGet w k := by
  induction l generalizing w with
  | nil => rfl
  | cons p l ih =>
    rw [List.foldl_cons, ih, List.map_cons]
    by_cases hk : k ∈ l.map Prod.fst
    · simp [hk]
    · by_cases hp : k = p.1
      · subst hp; simp [hk]
      · simp only [hk, if_false, List.mem_cons, hp, or_self]
        exact tableGet_erase_other _ hp

theorem mem_foldl_erase {l : List (Nat × Byte)} {w : List (Nat × Nat)} {c : Nat × Nat}
    (h : c ∈ l.foldl (fun w p => tableErase w p.1) w) : c ∈ w ∧ c.1 ∉ l.map Prod.fst := by
  induction l generalizing w with
  | nil => exact ⟨h, by simp⟩
  | cons p l ih =>
    rw [List.foldl_cons] at h
    obtain ⟨h₁, h₂⟩ := ih h
    obtain ⟨h₃, h₄⟩ := mem_tableErase h₁
    exact ⟨h₃, by simp only [List.map_cons, List.mem_cons, not_or]; exact ⟨h₄, h₂⟩⟩

theorem tableRising_foldl_erase (l : List (Nat × Byte)) {w : List (Nat × Nat)} (h : tableRising w = true) :
    tableRising (l.foldl (fun w p => tableErase w p.1) w) = true := by
  induction l generalizing w with
  | nil => exact h
  | cons p l ih => exact ih (tableRising_erase _ h)

/-- Slot `j` after an `execute` (R306). -/
theorem DelayQueue.slot_execute {q : DelayQueue} (h : q.next < q.slots.length) (j : Nat) :
    q.execute.2.slot j = if j = q.next then [] else q.slot j :=
  DelayQueue.slot_set q h [] _ _ j

end Sys2Proof.Machine
end

