-- ==== Sys2Proof/Laws/Invariant.lean ====
section
/-! SUPPORT. Every operation on memory keeps its canonical form, and every bus access keeps the state's invariant
(R64, R43, R44 to R46). -/

namespace Sys2Proof.Machine

/-! ## Memory -/

/-- The address of a RAM cell lies in the address space (R60). -/
theorem ramCell_lt {s : State} {a : Addr} {n : Nat} (h : s.ramCell a = some n) : n < 65536 := by
  unfold State.ramCell at h
  cases hr : s.route a <;> rw [hr] at h <;> cases h
  exact BitVec.isLt _

/-- A bus read keeps memory canonical: it does not change it. -/
theorem busRead_mem_wf (a : Addr) {s : State} (h : s.mem.wf = true) : (busRead a s).2.mem.wf = true := by
  rw [busRead_mem]
  exact h

/-- A bus write that does not halt the block keeps memory canonical. -/
theorem busWrite_mem_wf {a : Addr} {v : Byte} {s t : State} (ht : busWrite a v s = .ok t) (h : s.mem.wf = true) :
    t.mem.wf = true := by
  rw [busWrite_mem ht]
  cases hc : s.ramCell a with
  | none => exact h
  | some n => exact Memory.wf_write v (ramCell_lt hc) h

/-- `poke` keeps memory canonical. -/
theorem poke_mem_wf (a : Addr) (v : Byte) {s : State} (h : s.mem.wf = true) : (poke a v s).mem.wf = true := by
  unfold poke
  cases hc : s.ramCell a with
  | none => exact h
  | some n => exact Memory.wf_write v (ramCell_lt hc) h

/-- Placing a byte keeps memory canonical. -/
theorem placeByte_mem_wf (a : Addr) (v : Byte) {s : State} (h : s.mem.wf = true) : (placeByte a v s).mem.wf = true := by
  unfold placeByte
  cases hc : s.ramCell a <;> exact poke_mem_wf a v h

/-- Placing bytes keeps memory canonical. -/
theorem placeBytes_mem_wf (a : Addr) (vs : List Byte) {s : State} (h : s.mem.wf = true) :
    (placeBytes a vs s).mem.wf = true := by
  induction vs generalizing a s with
  | nil => exact h
  | cons v vs ih => exact ih _ (placeByte_mem_wf a v h)

/-- The placing of an instruction keeps memory canonical. -/
theorem withFetchWord_mem_wf (s : State) (nbits w : Nat) (h : s.mem.wf = true) :
    (s.withFetchWord nbits w).mem.wf = true :=
  placeBytes_mem_wf _ _ h

/-! ## The queue and the cartridge -/

/-- A push that does not halt the block keeps the invariants (R43). -/
theorem DelayQueue.Inv.push {q t : DelayQueue} (h : q.Inv) {d delay : Nat} {v : Byte} (ht : q.push d v delay = .ok t) :
    t.Inv := by
  obtain ⟨_, hd, hroom, rfl⟩ := DelayQueue.push_cases ht
  refine (h.cancel d).append v (by simpa using hd) (q.where_cancel d) ?_ (by simpa using hroom)
  rw [DelayQueue.cancel_depth]
  exact Nat.mod_lt _ (Nat.lt_of_le_of_lt (Nat.zero_le _) h.2.1)

/-- What the invariant says of the data that a bus access can change. Inside a step a halt may be under way, so this is
the part of it that every access keeps. -/
abbrev State.DataInv (s : State) : Prop :=
  s.mem.wf = true ∧ s.dq.Inv ∧ s.cart.all Cartridge.wf = true ∧ tableRising s.devices = true

/-- The invariant is that of the data, and that no halt is under way. -/
theorem inv_iff {s : State} : s.Inv ↔ s.DataInv ∧ s.halt = false := by
  unfold State.Inv State.DataInv
  simp only [and_assoc]

/-- A bus read keeps the invariant of the data. -/
theorem busRead_dataInv (a : Addr) {s : State} (h : s.DataInv) : (busRead a s).2.DataInv :=
  ⟨busRead_mem_wf a h.1, by rw [busRead_dq]; exact h.2.1, busRead_cart_wf a h.2.2.1, busRead_devices_rising a h.2.2.2⟩

/-- A bus write that does not halt the block keeps the invariant of the data. -/
theorem busWrite_dataInv {a : Addr} {v : Byte} {s t : State} (ht : busWrite a v s = .ok t) (h : s.DataInv) :
    t.DataInv := by
  refine ⟨busWrite_mem_wf ht h.1, ?_⟩
  obtain ⟨_, _, _, _, _, rfl, _, _, hc, hq, hd⟩ := busWrite_cases ht
  refine ⟨?_, hc h.2.2.1, hd h.2.2.2⟩
  rcases hq with hq | ⟨r, hq⟩
  · exact hq ▸ h.2.1
  · exact h.2.1.push hq

end Sys2Proof.Machine
end

