-- ==== Sys2Proof/Laws/Operands.lean ====
section
/-! SUPPORT. One lemma per shared operation of Operands.lean and Ops.lean: what a run of its cycles comes to, in the
terms of Reading.lean. -/

namespace Sys2Proof.Machine

@[simp] theorem runCycles_nil (q : Latches) (s : State) : runCycles [] q s = .more q s := rfl

@[simp] theorem runCycles_cons (c : Cycle) (cs : List Cycle) (q : Latches) (s : State) :
    runCycles (c :: cs) q s = (c q s).andThen (runCycles cs) := rfl

@[simp] theorem andThen_more (q : Latches) (s : State) (k : Cycle) : (Micro.more q s).andThen k = k q s := rfl

@[simp] theorem andThen_done (s : State) (k : Cycle) : (Micro.done s).andThen k = .done s := rfl

@[simp] theorem andThen_halt (f : Fault) (k : Cycle) : (Micro.halt f).andThen k = .halt f := rfl

@[simp] theorem close_done (ir : SeqKind) (t : Nat) (s : State) : close ir t (.done s) = .next (atBoundary s) := rfl

@[simp] theorem close_halt (ir : SeqKind) (t : Nat) (f : Fault) : close ir t (.halt f) = .fault f := rfl

theorem andThen_assoc (x : Micro) (k l : Cycle) : (x.andThen k).andThen l = x.andThen (fun q s => (k q s).andThen l) := by
  cases x <;> rfl

theorem runCycles_append (cs ds : List Cycle) (q : Latches) (s : State) :
    runCycles (cs ++ ds) q s = (runCycles cs q s).andThen (runCycles ds) := by
  induction cs generalizing q s with
  | nil => rfl
  | cons c cs ih =>
    simp only [List.cons_append, runCycles_cons, andThen_assoc]
    congr 1
    funext q s
    exact ih q s

/-- The latches with an instruction's operand bytes fetched. -/
def operandLatches (x : Addr) : Latches := { Latches.empty with lo := loByte x, hi := hiByte x }

theorem exec2_eq (p : Prog) (d : Byte) (s : State) : p.exec2 d s = p.run (operandLatches (zeroPage d)) s := by
  simp [Prog.exec2, operandLatches, zeroPage, Latches.empty]

theorem exec3_eq (p : Prog) (a : Addr) (s : State) : p.exec3 a s = p.run (operandLatches a) s := rfl

/-- The latch set for a run that ignores the high operand byte. -/
theorem loByte_zeroPage (d : Byte) : loByte (zeroPage d) = d := by simp [zeroPage]

/-- Where the addition does not cross a page, the uncorrected address is the address (R121). -/
theorem uncorrected_of_not_crosses {base : Addr} {i : Byte} (h : crosses base i = false) :
    uncorrected base i = indexed base i := by
  unfold crosses at h
  rw [decide_eq_false_iff_not, loByte_toNat] at h
  unfold uncorrected indexed
  apply BitVec.eq_of_toNat_eq
  rw [mkAddr_toNat, hiByte_toNat, BitVec.toNat_add, loByte_toNat, BitVec.toNat_add, BitVec.toNat_setWidth]
  omega

/-- The read class (R131): the operation, on the byte the mode delivers. -/
theorem readProg_run (ir : Byte) (md : Mode) (op : ReadOp) (x : Addr) (s : State) :
    (readProg ir md op).run (operandLatches x) s =
      .next (atBoundary (op (md.operand x s).1 (md.operand x s).2)) := by
  cases md <;>
    simp only [readProg, Prog.run, Mode.readFin, Mode.latch, Mode.readCycles, Mode.operand, Mode.base, Mode.index,
      operandLatches, Latches.empty, readCycle, zeroPageIndexCycle, correctableCycle, pointerXCycles, pointerYCycles,
      resolveIndexed, pointerAt, rd, reduceCtorEq, if_false, if_true, andThen_more, andThen_done, runCycles_cons,
      close_done, mkAddr_hiByte_loByte, List.cons_append, List.nil_append, busRead_X, busRead_Y]
  case abx | aby | izy =>
    split
    · rename_i h
      rw [h]
      rfl
    · rename_i h
      rw [Bool.not_eq_true] at h
      rw [uncorrected_of_not_crosses h, h]
      rfl

/-- What the cycles that resolve an address leave to the cycles after them: `ea` and the state of Reading.lean. -/
theorem addressCycles_run {md : Mode} (hmd : md ≠ .imm) (x : Addr) (s : State) :
    ∃ q : Latches, q.ea = (md.address x s).1 ∧ ∀ k,
      (md.latch (operandLatches x) s).andThen (runCycles (md.addressCycles ++ k)) =
        runCycles k q (md.address x s).2 := by
  cases md with
  | imm => exact absurd rfl hmd
  | zp => exact ⟨{ operandLatches x with ea := zeroPage (loByte x) }, rfl, fun k => rfl⟩
  | zpx => exact ⟨{ operandLatches x with ea := zeroPage (loByte x + s.X) }, rfl, fun k => by
      simp [Mode.latch, Mode.addressCycles, Mode.address, Mode.base, Mode.index, zeroPageIndexCycle, rd, operandLatches]⟩
  | zpy => exact ⟨{ operandLatches x with ea := zeroPage (loByte x + s.Y) }, rfl, fun k => by
      simp [Mode.latch, Mode.addressCycles, Mode.address, Mode.base, Mode.index, zeroPageIndexCycle, rd, operandLatches]⟩
  | abs => exact ⟨{ operandLatches x with ea := x }, rfl, fun k => by
      simp [Mode.latch, Mode.addressCycles, Mode.address, Mode.base, Mode.index, operandLatches]⟩
  | abx => exact ⟨resolveIndexed s.X (operandLatches x), by simp [resolveIndexed, operandLatches]; rfl, fun k => by
      simp [Mode.latch, Mode.addressCycles, Mode.address, Mode.base, Mode.index, uncorrectedCycle, rd, operandLatches,
        resolveIndexed]⟩
  | aby => exact ⟨resolveIndexed s.Y (operandLatches x), by simp [resolveIndexed, operandLatches]; rfl, fun k => by
      simp [Mode.latch, Mode.addressCycles, Mode.address, Mode.base, Mode.index, uncorrectedCycle, rd, operandLatches,
        resolveIndexed]⟩
  | izx => exact ⟨_, rfl, fun k => by
      simp only [Mode.latch, Mode.addressCycles, Mode.address, Mode.base, Mode.index, pointerXCycles, rd, pointerAt,
        operandLatches, andThen_more, runCycles_cons, List.cons_append, List.nil_append, busRead_X]
      rfl⟩
  | izy => exact ⟨_, rfl, fun k => by
      simp only [Mode.latch, Mode.addressCycles, Mode.address, Mode.base, Mode.index, pointerYCycles, rd, pointerAt,
        operandLatches, andThen_more, runCycles_cons, List.cons_append, List.nil_append, busRead_Y, resolveIndexed,
        uncorrectedCycle]
      rfl⟩

theorem close_wr (ir : SeqKind) (t : Nat) (a : Addr) (v : Byte) (s : State) (k : State → State) :
    close ir t (wr a v s fun s => .done (k s)) = endWrite ((busWrite a v s).map k) := by
  unfold wr
  cases busWrite a v s <;> rfl

/-- The write class (R132). -/
theorem writeProg_run (ir : Byte) {md : Mode} (hmd : md ≠ .imm) (reg : State → Byte) (x : Addr) (s : State) :
    (writeProg ir md reg).run (operandLatches x) s =
      endWrite (busWrite (md.address x s).1 (reg (md.address x s).2) (md.address x s).2) := by
  obtain ⟨q, hq, hk⟩ := addressCycles_run hmd x s
  have h := hk [storeCycle reg]
  unfold Prog.run writeProg
  dsimp only
  rw [h, runCycles_cons, storeCycle, hq, wr]
  cases busWrite (md.address x s).1 (reg (md.address x s).2) (md.address x s).2 <;> rfl

/-- The read-modify-write class (R133): the old value is written back, then the new one. -/
theorem rmwProg_run (ir : Byte) {md : Mode} (hmd : md ≠ .imm) (f : RmwOp) (x : Addr) (s : State) :
    (rmwProg ir md f).run (operandLatches x) s =
      (let e := md.address x s
       let r := busRead e.1 e.2
       endWrite ((busWrite e.1 r.1 r.2).bind fun t => (busWrite e.1 (f r.1 t).1 t).map fun u => (f r.1 u).2)) := by
  obtain ⟨q, hq, hk⟩ := addressCycles_run hmd x s
  have h := hk (rmwCycles f)
  unfold Prog.run rmwProg
  dsimp only
  rw [h]
  simp only [rmwCycles, runCycles_cons, rd, wr, andThen_more, hq]
  cases h₁ : busWrite (md.address x s).1 (busRead (md.address x s).1 (md.address x s).2).1
      (busRead (md.address x s).1 (md.address x s).2).2 with
  | error f => rfl
  | ok t =>
    cases h₂ : busWrite (md.address x s).1 (f (busRead (md.address x s).1 (md.address x s).2).1 t).1 t with
    | error g => simp only [Except.bind, h₂, runCycles_cons, andThen_more, andThen_halt, close_halt, Except.map, endWrite]
    | ok u => simp only [Except.bind, h₂, runCycles_cons, andThen_more, andThen_done, close_done, Except.map, endWrite]

/-- The implied class (R117): a dummy read of `PC`, and the operation. -/
theorem impliedProg_run (ir : Byte) (op : State → State) (q : Latches) (s : State) :
    (impliedProg ir op).run q s = .next (atBoundary (op (dummyRead s.PC s))) := rfl

/-- A one-byte instruction with a cycle table of its own (R135). -/
theorem oneByteProg_exec1 (ir : Byte) (cs : List Cycle) (s : State) :
    (oneByteProg ir cs).exec1 s = close (.op ir) (2 + 0 + cs.length) (runCycles cs Latches.empty s) := rfl

/-- A push as a cycle (R23). -/
theorem pushCycle_run (v : State → Byte) (k : Cycle) (q : Latches) (s : State) :
    pushCycle v k q s = (match pushBytes [v s] s with
      | .ok t => k q t
      | .error f => .halt f) := by
  unfold pushCycle wr pushBytes
  cases busWrite (stackAddr s.S) (v s) s <;> rfl

/-- Pushing a list of bytes in two parts. -/
theorem pushBytes_append (vs ws : List Byte) (s : State) :
    pushBytes (vs ++ ws) s = (pushBytes vs s).bind (pushBytes ws) := by
  induction vs generalizing s with
  | nil => rfl
  | cons v vs ih =>
    simp only [List.cons_append, pushBytes]
    cases busWrite (stackAddr s.S) v s with
    | ok t => exact ih _
    | error f => rfl

/-! ## From an instruction's operand -/

/-- A mode with one operand byte looks at nothing else of the operand. -/
theorem base_loByte {md : Mode} (h : md.operandBytes = 1) (hm : md ≠ .imm) (x : Addr) (s : State) :
    md.base (zeroPage (loByte x)) s = md.base x s := by
  cases md <;> first | contradiction | simp [Mode.base, loByte_zeroPage]

theorem operand_loByte {md : Mode} (h : md.operandBytes = 1) (x : Addr) (s : State) :
    md.operand (zeroPage (loByte x)) s = md.operand x s := by
  by_cases hm : md = .imm
  · subst hm
    simp [Mode.operand, Mode.index, loByte_zeroPage]
  · unfold Mode.operand
    rw [base_loByte h hm]
    cases md.index s <;> simp only [if_neg hm]

theorem address_loByte {md : Mode} (h : md.operandBytes = 1) (hm : md ≠ .imm) (x : Addr) (s : State) :
    md.address (zeroPage (loByte x)) s = md.address x s := by
  unfold Mode.address
  rw [base_loByte h hm]

theorem readProg_exec2 (ir : Byte) {md : Mode} (h : md.operandBytes = 1) (op : ReadOp) (x : Addr) (s : State) :
    (readProg ir md op).exec2 (loByte x) s = .next (atBoundary (op (md.operand x s).1 (md.operand x s).2)) := by
  rw [exec2_eq, readProg_run, operand_loByte h]

theorem readProg_exec3 (ir : Byte) (md : Mode) (op : ReadOp) (x : Addr) (s : State) :
    (readProg ir md op).exec3 x s = .next (atBoundary (op (md.operand x s).1 (md.operand x s).2)) :=
  readProg_run ir md op x s

theorem writeProg_exec2 (ir : Byte) {md : Mode} (h : md.operandBytes = 1) (hm : md ≠ .imm) (reg : State → Byte)
    (x : Addr) (s : State) :
    (writeProg ir md reg).exec2 (loByte x) s =
      endWrite (busWrite (md.address x s).1 (reg (md.address x s).2) (md.address x s).2) := by
  rw [exec2_eq, writeProg_run ir hm, address_loByte h hm]

theorem writeProg_exec3 (ir : Byte) {md : Mode} (hm : md ≠ .imm) (reg : State → Byte) (x : Addr) (s : State) :
    (writeProg ir md reg).exec3 x s =
      endWrite (busWrite (md.address x s).1 (reg (md.address x s).2) (md.address x s).2) :=
  writeProg_run ir hm reg x s

theorem rmwProg_exec2 (ir : Byte) {md : Mode} (h : md.operandBytes = 1) (hm : md ≠ .imm) (f : RmwOp) (x : Addr)
    (s : State) :
    (rmwProg ir md f).exec2 (loByte x) s =
      (let e := md.address x s
       let r := busRead e.1 e.2
       endWrite ((busWrite e.1 r.1 r.2).bind fun t => (busWrite e.1 (f r.1 t).1 t).map fun u => (f r.1 u).2)) := by
  rw [exec2_eq, rmwProg_run ir hm, address_loByte h hm]

theorem rmwProg_exec3 (ir : Byte) {md : Mode} (hm : md ≠ .imm) (f : RmwOp) (x : Addr) (s : State) :
    (rmwProg ir md f).exec3 x s =
      (let e := md.address x s
       let r := busRead e.1 e.2
       endWrite ((busWrite e.1 r.1 r.2).bind fun t => (busWrite e.1 (f r.1 t).1 t).map fun u => (f r.1 u).2)) :=
  rmwProg_run ir hm f x s

end Sys2Proof.Machine
end

