-- ==== Sys2Proof/Laws/Reads.lean ====
section
/-! SUPPORT. What a run of bus reads can do (R61): `ReadsOnly n s t` says that `t` is `s` after `n` reads. It holds of
the states that Reading.lean passes through, and each of its consequences is stated once. -/

namespace Sys2Proof.Machine

/-- `t` differs from `s` by what `n` bus reads can do: the cartridge's bank state, the states of the devices outside the
block, the draws, what a trap leaves, and `n` accesses. -/
def ReadsOnly (n : Nat) (s t : State) : Prop :=
  ∃ c dv d e h tr, t = { s with
      cart := c, devices := dv, draws := d, traps := e, halt := h, trace := s.trace ++ tr } ∧ tr.length = n ∧
    c.map (fun c => (c.scheme, c.rom)) = s.cart.map (fun c => (c.scheme, c.rom)) ∧
    (s.cart.all Cartridge.wf = true → c.all Cartridge.wf = true) ∧
    (tableRising s.devices = true → tableRising dv = true) ∧
    (s.quiet = true → h = false) ∧
    (s.platform.regions.all (fun r => r.dev.own) = true → e = s.traps ∧ dv = s.devices)

theorem ReadsOnly.refl (s : State) : ReadsOnly 0 s s :=
  ⟨s.cart, s.devices, s.draws, s.traps, s.halt, [], by simp, rfl, rfl, id, id, fun h => by simp_all [State.quiet],
    fun _ => ⟨rfl, rfl⟩⟩

theorem quiet_iff {s : State} :
    s.quiet = true ↔ s.halt = false ∧ (s.observer = true ∨ s.platform.regions.all (fun r => r.dev.own) = true) := by
  unfold State.quiet
  simp only [Bool.and_eq_true, Bool.not_eq_true', Bool.or_eq_true]

theorem ReadsOnly.trans {m n : Nat} {s t u : State} (h : ReadsOnly m s t) (k : ReadsOnly n t u) :
    ReadsOnly (m + n) s u := by
  obtain ⟨c, dv, d, e, hh, tr, rfl, hl, hc, hw, hd, hq, ho⟩ := h
  obtain ⟨c', dv', d', e', hh', tr', rfl, hl', hc', hw', hd', hq', ho'⟩ := k
  refine ⟨c', dv', d', e', hh', tr ++ tr', by simp, by simp [hl, hl'], hc'.trans hc, fun x => hw' (hw x),
    fun x => hd' (hd x), fun x => hq' (quiet_iff.mpr ⟨hq x, (quiet_iff.mp x).2⟩), fun x => ?_⟩
  obtain ⟨h₁, h₂⟩ := ho x
  obtain ⟨k₁, k₂⟩ := ho' x
  exact ⟨k₁.trans h₁, k₂.trans h₂⟩

theorem ReadsOnly.read (a : Addr) (s : State) : ReadsOnly 1 s (busRead a s).2 := by
  obtain ⟨c, dv, d, e, h, heq, hc, hw, hr, hown, _⟩ := busRead_cases a s
  refine ⟨c, dv, d, e, h, [Access.rd a (busRead a s).1], heq, rfl, hc, hw, hr, fun hq => ?_, fun ho => ?_⟩
  · have := (quiet_iff.mp (busRead_quiet a hq)).1
    rwa [heq] at this
  · exact ⟨(hown (routeIn_own ho _)).1, (hown (routeIn_own ho _)).2.2⟩

theorem ReadsOnly.dummy (a : Addr) (s : State) : ReadsOnly 1 s (dummyRead a s) := .read a s

theorem ReadsOnly.A {n : Nat} {s t : State} (h : ReadsOnly n s t) : t.A = s.A := by
  obtain ⟨_, _, _, _, _, _, rfl, _⟩ := h; rfl
theorem ReadsOnly.X {n : Nat} {s t : State} (h : ReadsOnly n s t) : t.X = s.X := by
  obtain ⟨_, _, _, _, _, _, rfl, _⟩ := h; rfl
theorem ReadsOnly.Y {n : Nat} {s t : State} (h : ReadsOnly n s t) : t.Y = s.Y := by
  obtain ⟨_, _, _, _, _, _, rfl, _⟩ := h; rfl
theorem ReadsOnly.S {n : Nat} {s t : State} (h : ReadsOnly n s t) : t.S = s.S := by
  obtain ⟨_, _, _, _, _, _, rfl, _⟩ := h; rfl
theorem ReadsOnly.PC {n : Nat} {s t : State} (h : ReadsOnly n s t) : t.PC = s.PC := by
  obtain ⟨_, _, _, _, _, _, rfl, _⟩ := h; rfl
theorem ReadsOnly.P {n : Nat} {s t : State} (h : ReadsOnly n s t) : t.P = s.P := by
  obtain ⟨_, _, _, _, _, _, rfl, _⟩ := h; rfl
theorem ReadsOnly.phase {n : Nat} {s t : State} (h : ReadsOnly n s t) : t.phase = s.phase := by
  obtain ⟨_, _, _, _, _, _, rfl, _⟩ := h; rfl
theorem ReadsOnly.boundary {n : Nat} {s t : State} (h : ReadsOnly n s t) : t.boundary = s.boundary := by
  obtain ⟨_, _, _, _, _, _, rfl, _⟩ := h; rfl
theorem ReadsOnly.irqLine {n : Nat} {s t : State} (h : ReadsOnly n s t) : t.irqLine = s.irqLine := by
  obtain ⟨_, _, _, _, _, _, rfl, _⟩ := h; rfl
theorem ReadsOnly.nmiPending {n : Nat} {s t : State} (h : ReadsOnly n s t) : t.nmiPending = s.nmiPending := by
  obtain ⟨_, _, _, _, _, _, rfl, _⟩ := h; rfl
theorem ReadsOnly.resetPending {n : Nat} {s t : State} (h : ReadsOnly n s t) : t.resetPending = s.resetPending := by
  obtain ⟨_, _, _, _, _, _, rfl, _⟩ := h; rfl
theorem ReadsOnly.dq {n : Nat} {s t : State} (h : ReadsOnly n s t) : t.dq = s.dq := by
  obtain ⟨_, _, _, _, _, _, rfl, _⟩ := h; rfl
theorem ReadsOnly.observer {n : Nat} {s t : State} (h : ReadsOnly n s t) : t.observer = s.observer := by
  obtain ⟨_, _, _, _, _, _, rfl, _⟩ := h; rfl
theorem ReadsOnly.mem {n : Nat} {s t : State} (h : ReadsOnly n s t) : t.mem = s.mem := by
  obtain ⟨_, _, _, _, _, _, rfl, _⟩ := h; rfl
theorem ReadsOnly.platform {n : Nat} {s t : State} (h : ReadsOnly n s t) : t.platform = s.platform := by
  obtain ⟨_, _, _, _, _, _, rfl, _⟩ := h; rfl
theorem ReadsOnly.undoc {n : Nat} {s t : State} (h : ReadsOnly n s t) : t.undoc = s.undoc := by
  obtain ⟨_, _, _, _, _, _, rfl, _⟩ := h; rfl
theorem ReadsOnly.traps {n : Nat} {s t : State} (h : ReadsOnly n s t)
    (ho : s.platform.regions.all (fun r => r.dev.own) = true) : t.traps = s.traps := by
  obtain ⟨_, _, _, _, _, _, rfl, _, _, _, _, _, h⟩ := h; exact (h ho).1
theorem ReadsOnly.devices {n : Nat} {s t : State} (h : ReadsOnly n s t)
    (ho : s.platform.regions.all (fun r => r.dev.own) = true) : t.devices = s.devices := by
  obtain ⟨_, _, _, _, _, _, rfl, _, _, _, _, _, h⟩ := h; exact (h ho).2
theorem ReadsOnly.devices_rising {n : Nat} {s t : State} (h : ReadsOnly n s t) (hr : tableRising s.devices = true) :
    tableRising t.devices = true := by
  obtain ⟨_, _, _, _, _, _, rfl, _, _, _, h, _⟩ := h; exact h hr
theorem ReadsOnly.quiet {n : Nat} {s t : State} (h : ReadsOnly n s t) (hq : s.quiet = true) : t.quiet = true := by
  obtain ⟨_, _, _, _, _, _, rfl, _, _, _, _, h, _⟩ := h
  exact quiet_iff.mpr ⟨h hq, (quiet_iff.mp hq).2⟩
theorem ReadsOnly.trace_length {n : Nat} {s t : State} (h : ReadsOnly n s t) : t.trace.length = s.trace.length + n := by
  obtain ⟨_, _, _, _, _, _, rfl, hl, _⟩ := h; simp [hl]
theorem ReadsOnly.cart {n : Nat} {s t : State} (h : ReadsOnly n s t) :
    t.cart.map (fun c => (c.scheme, c.rom)) = s.cart.map (fun c => (c.scheme, c.rom)) := by
  obtain ⟨_, _, _, _, _, _, rfl, _, hc, _⟩ := h; exact hc
theorem ReadsOnly.cart_wf {n : Nat} {s t : State} (h : ReadsOnly n s t) (hw : s.cart.all Cartridge.wf = true) :
    t.cart.all Cartridge.wf = true := by
  obtain ⟨_, _, _, _, _, _, rfl, _, _, hc, _⟩ := h; exact hc hw
theorem ReadsOnly.route {n : Nat} {s t : State} (h : ReadsOnly n s t) (b : Addr) : t.route b = s.route b :=
  route_congr h.platform b
theorem ReadsOnly.busAddr {n : Nat} {s t : State} (h : ReadsOnly n s t) (b : Addr) : t.busAddr b = s.busAddr b :=
  busAddr_congr h.platform b
theorem ReadsOnly.ramCell {n : Nat} {s t : State} (h : ReadsOnly n s t) (b : Addr) : t.ramCell b = s.ramCell b :=
  ramCell_congr h.platform b
theorem ReadsOnly.accepts {n : Nat} {s t : State} (h : ReadsOnly n s t) (b : Addr) : t.accepts b = s.accepts b :=
  accepts_congr h.platform h.observer h.cart b
theorem ReadsOnly.inv {n : Nat} {s t : State} (h : ReadsOnly n s t) (hi : s.Inv) (hq : s.quiet = true) : t.Inv :=
  ⟨h.mem ▸ hi.1, h.dq ▸ hi.2.1, h.cart_wf hi.2.2.1, h.devices_rising hi.2.2.2.1, (quiet_iff.mp (h.quiet hq)).1⟩

/-! ## The states of Reading.lean -/

theorem pointerAt_reads (p : Byte) (s : State) : ReadsOnly 2 s (pointerAt p s).2 :=
  (ReadsOnly.read _ _).trans (ReadsOnly.read _ _)

/-- How many reads resolve a mode's base address (R120 to R128). -/
def Mode.baseReads : Mode → Nat
  | .imm => 0
  | .zp => 0
  | .zpx => 1
  | .zpy => 1
  | .abs => 0
  | .abx => 0
  | .aby => 0
  | .izx => 3
  | .izy => 2

theorem base_reads (md : Mode) (x : Addr) (s : State) : ReadsOnly md.baseReads s (md.base x s).2 := by
  cases md with
  | imm => exact ReadsOnly.refl s
  | zp => exact ReadsOnly.refl s
  | zpx => exact ReadsOnly.read _ _
  | zpy => exact ReadsOnly.read _ _
  | abs => exact ReadsOnly.refl s
  | abx => exact ReadsOnly.refl s
  | aby => exact ReadsOnly.refl s
  | izx => exact (ReadsOnly.read _ _).trans (pointerAt_reads _ _)
  | izy => exact pointerAt_reads _ _

/-- The index of a mode does not change while its base is resolved. -/
theorem index_congr (md : Mode) {s t : State} (hX : t.X = s.X) (hY : t.Y = s.Y) : md.index t = md.index s := by
  cases md <;> simp [Mode.index, hX, hY]

/-- The resolution of an address is reads only: the base's, and one at the uncorrected address in an indexed mode. -/
theorem address_reads (md : Mode) (x : Addr) (s : State) :
    ReadsOnly (md.baseReads + (md.index s).toList.length) s (md.address x s).2 := by
  unfold Mode.address
  cases h : md.index s with
  | none => exact base_reads md x s
  | some i => exact (base_reads md x s).trans (ReadsOnly.read _ _)

/-- The operand's delivery is reads only: the base's, one more where a page is crossed, and the operand's own. -/
theorem operand_reads (md : Mode) (x : Addr) (s : State) :
    ReadsOnly (md.baseReads + (md.cross x s).toNat + (if md = .imm then 0 else 1)) s (md.operand x s).2 := by
  unfold Mode.operand Mode.cross
  cases h : md.index s with
  | none =>
    by_cases hm : md = .imm
    · subst hm
      exact ReadsOnly.refl s
    · simp only [if_neg hm]
      exact (base_reads md x s).trans (ReadsOnly.read _ _)
  | some i =>
    have hm : md ≠ .imm := by rintro rfl; cases h
    simp only [if_neg hm]
    cases crosses (md.base x s).1 i with
    | false => exact (base_reads md x s).trans (ReadsOnly.read _ _)
    | true => exact ((base_reads md x s).trans (ReadsOnly.read _ _)).trans (ReadsOnly.read _ _)

/-- A pull (R23): one read, and `S` one higher. -/
theorem pullByte_reads (s : State) : ReadsOnly 1 { s with S := s.S + 1 } (pullByte s).2 := ReadsOnly.read _ _

end Sys2Proof.Machine
end

