-- ==== Sys2Proof/Laws/Stack.lean ====
section
/-! SUPPORT. The stack and the interrupt sequences (R23, R252 to R254, R354, R390): that a read does not depend on a
register, what a run of pushes can do, and the shared sequences of Ops.lean in the terms of Reading.lean. -/

namespace Sys2Proof.Machine

/-! ## A bus read and the registers -/

/-- What a read of a device returns and does is the same whatever the registers hold. -/
theorem deviceRead_withRegs (a : Addr) (s : State) (sp : Byte) (pc : Addr) (p : Flags) (nmi rst : Bool) :
    State.deviceRead { s with S := sp, PC := pc, P := p, nmiPending := nmi, resetPending := rst } a =
      ((s.deviceRead a).1,
        { (s.deviceRead a).2 with S := sp, PC := pc, P := p, nmiPending := nmi, resetPending := rst }) := by
  have hr : State.route { s with S := sp, PC := pc, P := p, nmiPending := nmi, resetPending := rst } a = s.route a := rfl
  have hb : State.busAddr { s with S := sp, PC := pc, P := p, nmiPending := nmi, resetPending := rst } a = s.busAddr a :=
    rfl
  unfold State.deviceRead State.ramRead
  rw [hr, hb]
  cases s.route a with
  | ram base mirror => rfl
  | cart =>
    generalize s.busAddr a = b
    obtain ⟨_, _, _, _, _, _, _, _, _, _, _, _, cart, _, _, _, _, _, _, _, _, _⟩ := s
    cases cart <;> rfl
  | chip => rfl
  | absent => rfl
  | other id' =>
    generalize s.busAddr a = b
    have hd : State.deviceState { s with S := sp, PC := pc, P := p, nmiPending := nmi, resetPending := rst } id' =
      s.deviceState id' := rfl
    dsimp only
    rw [hd]
    cases (Config.deviceRead id' (s.deviceState id') b).after with
    | some n => rfl
    | none =>
      unfold readTrap
      obtain ⟨_, _, _, _, _, _, _, _, _, _, _, _, _, observer, _, _, _, _, _, _, _, _⟩ := s
      cases observer <;> rfl

/-- What a bus read returns and does is the same whatever the registers hold. -/
theorem busRead_withRegs (a : Addr) (s : State) (sp : Byte) (pc : Addr) (p : Flags) (nmi rst : Bool) :
    busRead a { s with S := sp, PC := pc, P := p, nmiPending := nmi, resetPending := rst } =
      ((busRead a s).1,
        { (busRead a s).2 with S := sp, PC := pc, P := p, nmiPending := nmi, resetPending := rst }) := by
  unfold busRead
  rw [deviceRead_withRegs]

theorem busRead_withPC (a pc : Addr) (s : State) :
    busRead a { s with PC := pc } = ((busRead a s).1, { (busRead a s).2 with PC := pc }) := by
  have h := busRead_withRegs a s s.S pc s.P s.nmiPending s.resetPending
  refine h.trans ?_
  rw [← busRead_S a s, ← busRead_P a s, ← busRead_nmiPending a s, ← busRead_resetPending a s]

theorem busRead_withS (a : Addr) (sp : Byte) (s : State) :
    busRead a { s with S := sp } = ((busRead a s).1, { (busRead a s).2 with S := sp }) := by
  have h := busRead_withRegs a s sp s.PC s.P s.nmiPending s.resetPending
  refine h.trans ?_
  rw [← busRead_PC a s, ← busRead_P a s, ← busRead_nmiPending a s, ← busRead_resetPending a s]

/-- A byte of RAM that something has loaded or written, read (R64). -/
theorem busRead_of_ramCell {a : Addr} {s : State} {n : Nat} {v : Byte} (hc : s.ramCell a = some n)
    (hm : Memory.read s.mem n = some v) : busRead a s = (v, { s with trace := s.trace ++ [Access.rd a v] }) := by
  exact busRead_listed hc hm

/-- A write to an address that names a cell of RAM is accepted. -/
theorem accepts_of_ramCell {a : Addr} {s : State} {n : Nat} (hc : s.ramCell a = some n) : s.accepts a = true := by
  obtain ⟨_, _, hr, _⟩ := ramCell_eq hc
  unfold State.accepts
  rw [hr]

/-! ## Pushes -/

/-- The accesses of a run of pushes. -/
def pushTrace : List Byte → Byte → List Access
  | [], _ => []
  | v :: vs, sp => Access.wr (stackAddr sp) v :: pushTrace vs (sp - 1)

/-- A run of pushes that does not halt the block, taken apart at the first. -/
theorem pushBytes_cons {v : Byte} {vs : List Byte} {s t : State} (h : pushBytes (v :: vs) s = .ok t) :
    ∃ u, busWrite (stackAddr s.S) v s = .ok u ∧ pushBytes vs { u with S := u.S - 1 } = .ok t := by
  unfold pushBytes at h
  cases hu : busWrite (stackAddr s.S) v s with
  | ok u => rw [hu] at h; exact ⟨u, rfl, h⟩
  | error f => rw [hu] at h; cases h

/-- A run of pushes that does not halt the block: `S` lower by their number, the accesses recorded, and at most RAM, the
cartridge's bank state, the queue, the states of the devices outside the block and the events received changed (R23). -/
theorem pushBytes_frame {vs : List Byte} {s t : State} (h : pushBytes vs s = .ok t) :
    ∃ m c q dv e, t = { s with
      S := s.S - BitVec.ofNat 8 vs.length, mem := m, cart := c, dq := q, devices := dv, traps := e
      trace := s.trace ++ pushTrace vs s.S } ∧
      c.map (fun c => (c.scheme, c.rom)) = s.cart.map (fun c => (c.scheme, c.rom)) := by
  induction vs generalizing s with
  | nil => cases h; exact ⟨t.mem, t.cart, t.dq, t.devices, t.traps, by simp [pushTrace], rfl⟩
  | cons v vs ih =>
    obtain ⟨u, hu, h⟩ := pushBytes_cons h
    obtain ⟨m, c, q, dv, e, rfl, _, hc, _⟩ := busWrite_cases hu
    obtain ⟨m', c', q', dv', e', rfl, hc'⟩ := ih h
    refine ⟨m', c', q', dv', e', ?_, hc'.trans hc⟩
    have hS : s.S - 1 - BitVec.ofNat 8 vs.length = s.S - BitVec.ofNat 8 (v :: vs).length := by
      apply BitVec.eq_of_toNat_eq
      rw [List.length_cons]
      have h1 : (1 : Byte).toNat = 1 := rfl
      simp only [BitVec.toNat_sub, BitVec.toNat_ofNat, h1]
      omega
    rw [← hS]
    simp [pushTrace]

theorem pushBytes_A {vs : List Byte} {s t : State} (h : pushBytes vs s = .ok t) : t.A = s.A := by
  obtain ⟨_, _, _, _, _, rfl, _⟩ := pushBytes_frame h; rfl
theorem pushBytes_X {vs : List Byte} {s t : State} (h : pushBytes vs s = .ok t) : t.X = s.X := by
  obtain ⟨_, _, _, _, _, rfl, _⟩ := pushBytes_frame h; rfl
theorem pushBytes_Y {vs : List Byte} {s t : State} (h : pushBytes vs s = .ok t) : t.Y = s.Y := by
  obtain ⟨_, _, _, _, _, rfl, _⟩ := pushBytes_frame h; rfl
theorem pushBytes_PC {vs : List Byte} {s t : State} (h : pushBytes vs s = .ok t) : t.PC = s.PC := by
  obtain ⟨_, _, _, _, _, rfl, _⟩ := pushBytes_frame h; rfl
theorem pushBytes_P {vs : List Byte} {s t : State} (h : pushBytes vs s = .ok t) : t.P = s.P := by
  obtain ⟨_, _, _, _, _, rfl, _⟩ := pushBytes_frame h; rfl
theorem pushBytes_phase {vs : List Byte} {s t : State} (h : pushBytes vs s = .ok t) : t.phase = s.phase := by
  obtain ⟨_, _, _, _, _, rfl, _⟩ := pushBytes_frame h; rfl
theorem pushBytes_boundary {vs : List Byte} {s t : State} (h : pushBytes vs s = .ok t) : t.boundary = s.boundary := by
  obtain ⟨_, _, _, _, _, rfl, _⟩ := pushBytes_frame h; rfl
theorem pushBytes_irqLine {vs : List Byte} {s t : State} (h : pushBytes vs s = .ok t) : t.irqLine = s.irqLine := by
  obtain ⟨_, _, _, _, _, rfl, _⟩ := pushBytes_frame h; rfl
theorem pushBytes_nmiPending {vs : List Byte} {s t : State} (h : pushBytes vs s = .ok t) : t.nmiPending = s.nmiPending := by
  obtain ⟨_, _, _, _, _, rfl, _⟩ := pushBytes_frame h; rfl
theorem pushBytes_resetPending {vs : List Byte} {s t : State} (h : pushBytes vs s = .ok t) : t.resetPending = s.resetPending := by
  obtain ⟨_, _, _, _, _, rfl, _⟩ := pushBytes_frame h; rfl
theorem pushBytes_observer {vs : List Byte} {s t : State} (h : pushBytes vs s = .ok t) : t.observer = s.observer := by
  obtain ⟨_, _, _, _, _, rfl, _⟩ := pushBytes_frame h; rfl
theorem pushBytes_platform {vs : List Byte} {s t : State} (h : pushBytes vs s = .ok t) : t.platform = s.platform := by
  obtain ⟨_, _, _, _, _, rfl, _⟩ := pushBytes_frame h; rfl
theorem pushBytes_undoc {vs : List Byte} {s t : State} (h : pushBytes vs s = .ok t) : t.undoc = s.undoc := by
  obtain ⟨_, _, _, _, _, rfl, _⟩ := pushBytes_frame h; rfl
theorem pushBytes_halt {vs : List Byte} {s t : State} (h : pushBytes vs s = .ok t) : t.halt = s.halt := by
  obtain ⟨_, _, _, _, _, rfl, _⟩ := pushBytes_frame h; rfl
theorem pushBytes_draws {vs : List Byte} {s t : State} (h : pushBytes vs s = .ok t) : t.draws = s.draws := by
  obtain ⟨_, _, _, _, _, rfl, _⟩ := pushBytes_frame h; rfl
theorem pushBytes_S {vs : List Byte} {s t : State} (h : pushBytes vs s = .ok t) :
    t.S = s.S - BitVec.ofNat 8 vs.length := by
  obtain ⟨_, _, _, _, _, rfl, _⟩ := pushBytes_frame h; rfl
theorem pushBytes_trace {vs : List Byte} {s t : State} (h : pushBytes vs s = .ok t) :
    t.trace = s.trace ++ pushTrace vs s.S := by
  obtain ⟨_, _, _, _, _, rfl, _⟩ := pushBytes_frame h; rfl
theorem pushBytes_cart {vs : List Byte} {s t : State} (h : pushBytes vs s = .ok t) :
    t.cart.map (fun c => (c.scheme, c.rom)) = s.cart.map (fun c => (c.scheme, c.rom)) := by
  obtain ⟨_, _, _, _, _, rfl, hc⟩ := pushBytes_frame h; exact hc
theorem pushBytes_ramCell {vs : List Byte} {s t : State} (h : pushBytes vs s = .ok t) (b : Addr) :
    t.ramCell b = s.ramCell b := ramCell_congr (pushBytes_platform h) b

/-- The addresses that a run of `n` pushes writes. -/
def pushAddrs : Nat → Byte → List Addr
  | 0, _ => []
  | n + 1, sp => stackAddr sp :: pushAddrs n (sp - 1)

/-- A run of pushes to slots that accept a write does not halt the block. -/
theorem pushBytes_accepts {vs : List Byte} {s : State} (h : ∀ a ∈ pushAddrs vs.length s.S, s.accepts a = true) :
    ∃ t, pushBytes vs s = .ok t := by
  induction vs generalizing s with
  | nil => exact ⟨s, rfl⟩
  | cons v vs ih =>
    obtain ⟨u, hu⟩ := busWrite_accepts v (h (stackAddr s.S) (by simp [pushAddrs]))
    unfold pushBytes
    rw [hu]
    refine ih fun a ha => ?_
    dsimp only at ha
    rw [busWrite_S hu] at ha
    have : State.accepts { u with S := u.S - 1 } a = u.accepts a := rfl
    rw [this, busWrite_keeps_accepts hu]
    exact h a (List.mem_cons_of_mem _ ha)

/-- A cell that no push names reads as before. -/
theorem pushBytes_read_other {vs : List Byte} {s t : State} (h : pushBytes vs s = .ok t) {n : Nat}
    (hn : ∀ a ∈ pushAddrs vs.length s.S, s.ramCell a ≠ some n) : Memory.read t.mem n = Memory.read s.mem n := by
  induction vs generalizing s with
  | nil => cases h; rfl
  | cons v vs ih =>
    obtain ⟨u, hu, h⟩ := pushBytes_cons h
    refine (ih h fun a ha => ?_).trans (busWrite_read_other hu (hn _ (by simp [pushAddrs])))
    dsimp only at ha
    rw [busWrite_S hu] at ha
    have : State.ramCell { u with S := u.S - 1 } a = u.ramCell a := rfl
    rw [this, busWrite_ramCell hu]
    exact hn a (List.mem_cons_of_mem _ ha)

/-! ## Pulls -/

/-- The first half of a run of pulls: a dummy read of the slot `S` names, after which `S` rises (R150, R23). -/
theorem pull_first (cs : List Cycle) (q : Latches) (s : State) :
    runCycles (pullCycle (fun _ => goOn) :: cs) q s =
      runCycles cs q { dummyRead (stackAddr s.S) s with S := (dummyRead (stackAddr s.S) s).S + 1 } := rfl

/-- A pull with another behind it. -/
theorem pull_next (k : Byte → Cycle) (cs : List Cycle) (q : Latches) (d : State) :
    runCycles (pullCycle k :: cs) q { d with S := d.S + 1 } =
      (k (pullByte d).1 q { (pullByte d).2 with S := (pullByte d).2.S + 1 }).andThen (runCycles cs) := rfl

/-- The last pull. -/
theorem pull_last (k : Byte → Cycle) (cs : List Cycle) (q : Latches) (d : State) :
    runCycles (stackCycle k :: cs) q { d with S := d.S + 1 } =
      (k (pullByte d).1 q (pullByte d).2).andThen (runCycles cs) := rfl

/-- A dummy read of `PC` in front of a run. -/
theorem dummyPC_first (cs : List Cycle) (q : Latches) (s : State) :
    runCycles (dummyPC goOn :: cs) q s = runCycles cs q (dummyRead s.PC s) := rfl

/-- `PLA` and `PLP` after the opcode fetch (R242, R243). -/
theorem pullTable_run (op : ReadOp) (q : Latches) (s : State) :
    runCycles (pullTable op) q s =
      .done (let p := pullByte (dummyRead (stackAddr s.S) (dummyRead s.PC s)); op p.1 p.2) := by
  have hS : (dummyRead s.PC s).S = s.S := busRead_S _ _
  unfold pullTable
  rw [dummyPC_first, pull_first, hS]
  exact pull_last _ [] q _

/-- `RTI` after the opcode fetch (R253). -/
theorem returnCycles_run (q : Latches) (s : State) :
    runCycles returnCycles q s =
      .done (let p := pullByte (dummyRead (stackAddr s.S) (dummyRead s.PC s))
        let lo := pullByte { p.2 with P := unpack p.1 }
        let hi := pullByte lo.2
        { hi.2 with PC := mkAddr hi.1 lo.1 }) := by
  have hS : (dummyRead s.PC s).S = s.S := busRead_S _ _
  unfold returnCycles
  rw [dummyPC_first, pull_first, hS]
  generalize dummyRead (stackAddr s.S) (dummyRead s.PC s) = d
  dsimp only
  rw [pull_next]
  generalize pullByte d = p
  rw [andThen_more]
  refine (pull_next _ _ q { p.2 with P := unpack p.1 }).trans ?_
  generalize pullByte { p.2 with P := unpack p.1 } = lo
  rw [andThen_more]
  exact pull_last _ [] _ lo.2

/-- `RTS` after the opcode fetch (R232). -/
theorem returnSubCycles_run (q : Latches) (s : State) :
    runCycles returnSubCycles q s =
      .done (let lo := pullByte (dummyRead (stackAddr s.S) (dummyRead s.PC s))
        let hi := pullByte lo.2
        let ret := mkAddr hi.1 lo.1
        { dummyRead ret { hi.2 with PC := ret } with PC := ret + 1 }) := by
  have hS : (dummyRead s.PC s).S = s.S := busRead_S _ _
  unfold returnSubCycles
  rw [dummyPC_first, pull_first, hS]
  generalize dummyRead (stackAddr s.S) (dummyRead s.PC s) = d
  dsimp only
  rw [pull_next]
  generalize pullByte d = lo
  rw [andThen_more]
  refine (pull_last _ _ { q with lo := lo.1 } lo.2).trans ?_
  generalize pullByte lo.2 = hi
  simp only [andThen_more, runCycles_cons, dummyPC, rd, andThen_done, dummyRead, busRead_PC]

/-! ## The shared sequences -/

/-- A write that may halt, then more of the run. -/
theorem push_andThen (v : State → Byte) (cs : List Cycle) (q : Latches) (s : State) :
    (pushCycle v goOn q s).andThen (runCycles cs) =
      (match pushBytes [v s] s with
       | .ok t => runCycles cs q t
       | .error f => .halt f) := by
  rw [pushCycle_run]
  cases pushBytes [v s] s <;> rfl

/-- The two cycles that load `PC` from a vector. -/
theorem vectorCycles_run (vec : Addr) (q : Latches) (s : State) :
    runCycles (vectorCycles vec) q s = .done (throughVector vec s) := rfl

/-- The end of a run after pushes that may have halted the block. -/
def afterPushes (k : State → State) (r : Except Fault State) : Micro :=
  match r with
  | .ok t => .done (k t)
  | .error f => .halt f

/-- Taking an interrupt (R252, R354): the three pushes, then the vector. -/
theorem entryCycles_run (b : Bool) (vec : Addr) (q : Latches) (s : State) :
    runCycles (entryCycles b vec) q s = afterPushes (throughVector vec) (pushBytes [hiByte s.PC, loByte s.PC, pack b s.P] s) := by
  have hsplit : [hiByte s.PC, loByte s.PC, pack b s.P] = [hiByte s.PC] ++ ([loByte s.PC] ++ [pack b s.P]) := rfl
  simp only [entryCycles, List.cons_append, List.nil_append, runCycles_cons, push_andThen]
  rw [hsplit, pushBytes_append]
  cases h₁ : pushBytes [hiByte s.PC] s with
  | error f => rfl
  | ok t =>
    simp only [Except.bind, pushBytes_append, pushBytes_PC h₁]
    cases h₂ : pushBytes [loByte s.PC] t with
    | error f => rfl
    | ok u =>
      simp only [pushBytes_P h₂, pushBytes_P h₁]
      cases pushBytes [pack b s.P] u <;> rfl

/-- The end of a run whose last part is a list of pushes. -/
theorem close_afterPushes (ir : SeqKind) (t : Nat) (k : State → State) (r : Except Fault State) :
    close ir t (afterPushes k r) = endWrite (r.map k) := by
  cases r <;> rfl

/-- `PHA` and `PHP` after the opcode fetch (R240, R241). -/
theorem pushTable_run (v : State → Byte) (q : Latches) (s : State) :
    runCycles (pushTable v) q s = afterPushes id (pushBytes [v (dummyRead s.PC s)] (dummyRead s.PC s)) := by
  unfold pushTable
  rw [dummyPC_first, runCycles_cons, pushCycle_run]
  cases pushBytes [v (dummyRead s.PC s)] (dummyRead s.PC s) <;> rfl

/-- `JSR` after the fetch of the low operand byte (R231). -/
theorem callCycles_run (q : Latches) (s : State) :
    runCycles callCycles q s =
      afterPushes (fun t => { (busRead t.PC t).2 with PC := mkAddr (busRead t.PC t).1 q.lo })
        (pushBytes [hiByte s.PC, loByte s.PC] (dummyRead (stackAddr s.S) s)) := by
  have hsplit : [hiByte s.PC, loByte s.PC] = [hiByte s.PC] ++ [loByte s.PC] := rfl
  have hPC : (dummyRead (stackAddr s.S) s).PC = s.PC := busRead_PC _ _
  have h : runCycles callCycles q s = runCycles callCycles.tail q (dummyRead (stackAddr s.S) s) := rfl
  rw [h, callCycles, List.tail_cons, runCycles_cons, push_andThen, hPC, hsplit, pushBytes_append]
  cases h₁ : pushBytes [hiByte s.PC] (dummyRead (stackAddr s.S) s) with
  | error f => rfl
  | ok t =>
    simp only [Except.bind, runCycles_cons, push_andThen, pushBytes_PC h₁, hPC]
    cases pushBytes [loByte s.PC] t <;> rfl

/-- The fields after a vector is loaded. -/
theorem throughVector_reads (vec : Addr) (s : State) :
    ∃ lo hi t, ReadsOnly 2 { s with P := { s.P with I := true } } t ∧ throughVector vec s = { t with PC := mkAddr hi lo } ∧
      t.trace = s.trace ++ [Access.rd vec lo, Access.rd (vec + 1) hi] := by
  refine ⟨(busRead vec s).1, (busRead (vec + 1) { (busRead vec s).2 with P := { (busRead vec s).2.P with I := true } }).1,
    (busRead (vec + 1) { (busRead vec s).2 with P := { (busRead vec s).2.P with I := true } }).2, ?_, rfl, ?_⟩
  · have h := busRead_withRegs vec s s.S s.PC { s.P with I := true } s.nmiPending s.resetPending
    have h' : { (busRead vec s).2 with P := { (busRead vec s).2.P with I := true } } =
        (busRead vec { s with P := { s.P with I := true } }).2 := by
      refine Eq.trans ?_ (congrArg Prod.snd h).symm
      dsimp only
      rw [busRead_P, ← busRead_S vec s, ← busRead_PC vec s, ← busRead_nmiPending vec s, ← busRead_resetPending vec s]
    rw [h']
    exact (ReadsOnly.read _ _).trans (ReadsOnly.read _ _)
  · simp

end Sys2Proof.Machine
end

