-- ==== Sys2Proof/Laws/Steps.lean ====
section
/-! SUPPORT. One equation for each way a step starts (R112, R352): the IRQ, NMI and reset sequences in the terms of
Reading.lean, and the fetch of an instruction. -/

namespace Sys2Proof.Machine

theorem beginSequence_idle {s : State} (h : s.phase = .idle) :
    { s.beginSequence with phase := .idle } = s.beginSequence := by
  obtain ⟨_, _, _, _, _, _, phase⟩ := s
  cases h
  rfl

/-! ## The end of a step -/

/-- A step ends in a next state exactly if what it ran does, with no halt under way (R362, R363). -/
theorem settle_next {o : Out} {t : State} : settle o = .next t ↔ o = .next t ∧ t.halt = false := by
  cases o with
  | next u =>
    unfold settle
    cases hu : u.halt with
    | false =>
      simp only [hu, Bool.false_eq_true, if_false, Host.Outcome.next.injEq, iff_self_and]
      rintro rfl
      exact hu
    | true =>
      simp only [hu, if_true, reduceCtorEq, Host.Outcome.next.injEq, false_iff, not_and]
      rintro rfl
      simp [hu]
  | fault f => simp [settle]
  | refused r => simp [settle]

/-- A refusal is not the doing of a halt. -/
theorem settle_refused {o : Out} {r : Refusal} : settle o = .refused r ↔ o = .refused r := by
  cases o with
  | next u =>
    unfold settle
    cases hu : u.halt <;> simp [hu]
  | fault f => simp [settle]
  | refused r => simp [settle]

/-- A state with no halt under way is the step's next state. -/
theorem settle_of_next {o : Out} {t : State} (h : o = .next t) (ht : t.halt = false) : settle o = .next t :=
  settle_next.mpr ⟨h, ht⟩

/-- A step that faults does so by what it ran, or by a read that has been trapped with no observer. -/
theorem settle_eq_fault {o : Out} {f : Fault} (h : settle o = .fault f) :
    o = .fault f ∨ f = .trapWithoutObserver .invalidRead := by
  unfold settle at h
  split at h
  · split at h <;> cases h
    exact .inr rfl
  · exact .inl h
  · cases h

/-- A fault stands. -/
@[simp] theorem settle_fault (f : Fault) : settle (.fault f) = .fault f := rfl

/-- A step from a boundary that recognises a request runs that sequence's cycles. -/
theorem step_request {s : State} {k : SeqKind} (hid : s.phase = .idle) (hq : s.request = some k) :
    step s = settle (runRest { ir := k, t := 1, q := Latches.empty } s.beginSequence) := by
  have hq' : s.beginSequence.request = some k := hq
  unfold step stepAtBoundary
  rw [hid]
  dsimp only
  rw [hq']

/-- A step from a boundary with no request runs the instruction fetched. -/
theorem step_fetch {s : State} (hid : s.phase = .idle) (hq : s.request = none) :
    step s = settle (runBytes (fetchInstr s.beginSequence).1 (fetchInstr s.beginSequence).2) := by
  have hq' : s.beginSequence.request = none := hq
  unfold step stepAtBoundary
  rw [hid]
  dsimp only
  rw [hq']

/-- The IRQ and NMI sequences (R354), `first` being what the first of the two dummy reads does beside. -/
theorem interruptCycles_run (vec : Addr) (first : State → State) (q : Latches) (s : State)
    (hPC : ∀ u : State, (first u).PC = u.PC) (hP : ∀ u : State, (first u).P = u.P) :
    runCycles (interruptCycles vec first) q s =
      afterPushes (throughVector vec) (pushBytes [hiByte s.PC, loByte s.PC, pack false s.P] (dummyRead s.PC (first (dummyRead s.PC s)))) := by
  have h : runCycles (interruptCycles vec first) q s =
      runCycles (entryCycles false vec) q (dummyRead s.PC (first (dummyRead s.PC s))) := by
    simp only [interruptCycles, List.cons_append, List.nil_append, runCycles_cons, dummyPC, rd, goOn, andThen_more, hPC,
      busRead_PC]
    rfl
  rw [h, entryCycles_run]
  simp only [dummyRead, busRead_PC, busRead_P, hPC, hP]

/-- The NMI sequence (R354): its latch is cleared in cycle 1. -/
theorem step_nmi {s : State} (hid : s.phase = .idle) (hq : s.request = some .nmi) :
    step s = settle (endWrite ((pushBytes [hiByte s.PC, loByte s.PC, pack false s.P]
      (dummyRead s.PC { dummyRead s.PC s.beginSequence with nmiPending := false })).map (throughVector nmiVector))) := by
  rw [step_request hid hq]
  have h := interruptCycles_run nmiVector (fun s => { s with nmiPending := false }) Latches.empty s.beginSequence
    (fun _ => rfl) (fun _ => rfl)
  rw [← close_afterPushes .nmi 8]
  exact congrArg settle (congrArg (close .nmi 8) ((congrArg _ (beginSequence_idle hid)).trans h))

/-- The IRQ sequence (R354). -/
theorem step_irq {s : State} (hid : s.phase = .idle) (hq : s.request = some .irq) :
    step s = settle (endWrite ((pushBytes [hiByte s.PC, loByte s.PC, pack false s.P]
      (dummyRead s.PC (dummyRead s.PC s.beginSequence))).map (throughVector irqVector))) := by
  rw [step_request hid hq]
  have h := interruptCycles_run irqVector id Latches.empty s.beginSequence (fun _ => rfl) (fun _ => rfl)
  rw [← close_afterPushes .irq 8]
  exact congrArg settle (congrArg (close .irq 8) ((congrArg _ (beginSequence_idle hid)).trans h))

/-- A dummy read of a stack slot in the reset sequence (R390). -/
theorem resetStack_next (cs : List Cycle) (q : Latches) (s : State) :
    runCycles (resetStackCycle :: cs) q s =
      runCycles cs q { dummyRead (stackAddr s.S) s with S := (dummyRead (stackAddr s.S) s).S - 1 } := rfl

/-- The first dummy read of the reset sequence, which clears the latch (R390). -/
theorem resetFirst_next (cs : List Cycle) (q : Latches) (s : State) :
    runCycles (dummyPC (fun q s => .more q { s with resetPending := false }) :: cs) q s =
      runCycles cs q { dummyRead s.PC s with resetPending := false } := rfl

/-- The reset sequence (R390). -/
theorem resetCycles_run (q : Latches) (s : State) :
    runCycles resetCycles q s =
      .done (let s₁ := { dummyRead s.PC s with resetPending := false }
        let s₂ := dummyRead s.PC s₁
        let s₃ := { dummyRead (stackAddr s.S) s₂ with S := s.S - 1 }
        let s₄ := { dummyRead (stackAddr (s.S - 1)) s₃ with S := s.S - 2 }
        let s₅ := { dummyRead (stackAddr (s.S - 2)) s₄ with S := s.S - 3 }
        throughVector resetVector s₅) := by
  have e : ∀ a u, (dummyRead a u).S = u.S := fun a u => busRead_S a u
  have e' : ∀ a u, (dummyRead a u).PC = u.PC := fun a u => busRead_PC a u
  have h2 : s.S - 1 - 1 = s.S - 2 := by rw [BitVec.sub_sub]; rfl
  have h3 : s.S - 2 - 1 = s.S - 3 := by rw [BitVec.sub_sub]; rfl
  unfold resetCycles
  simp only [List.cons_append, List.nil_append]
  rw [resetFirst_next, dummyPC_first, resetStack_next, resetStack_next, resetStack_next, vectorCycles_run]
  simp only [e, e', h2, h3]

/-- A step from a boundary with a reset pending (R390). -/
theorem step_reset {s : State} (hid : s.phase = .idle) (hq : s.resetPending = true) :
    step s = settle (close .reset 8 (runCycles resetCycles Latches.empty s.beginSequence)) := by
  have hq' : s.request = some .reset := by
    unfold State.request
    rw [hq]
    rfl
  rw [step_request hid hq']
  exact congrArg settle (congrArg (close .reset 8) (congrArg (runCycles resetCycles Latches.empty) (beginSequence_idle hid)))

/-- The cycles of `BRK` after its opcode fetch (R252). -/
theorem brkCycles_run (q : Latches) (s : State) :
    runCycles (paddingCycle :: entryCycles true irqVector) q s =
      afterPushes (throughVector irqVector)
        (pushBytes [hiByte (s.PC + 1), loByte (s.PC + 1), pack true s.P] { dummyRead s.PC s with PC := s.PC + 1 }) := by
  have h : runCycles (paddingCycle :: entryCycles true irqVector) q s =
      runCycles (entryCycles true irqVector) q { dummyRead s.PC s with PC := s.PC + 1 } := by
    simp only [paddingCycle, dummyPC, rd, runCycles_cons, andThen_more, busRead_PC]
    rfl
  rw [h, entryCycles_run]
  simp only [dummyRead, busRead_P]

end Sys2Proof.Machine
end

