-- ==== Sys2Proof/Laws/Keeps.lean ====
section
/-! SUPPORT. The induction over a cycle table, once: what every cycle of a sequence keeps, the sequence keeps, and so do
the clock step and the step. A predicate of the state is kept by the shared cycles if it is kept by bus reads, by the
bus writes that do not halt the block, and by the register updates that the cycles name. -/

namespace Sys2Proof.Machine

/-- A predicate holds of the state that a cycle leaves, if it leaves one; and a cycle that halts the block does not do so
by a decode failure (R361). -/
def Micro.All (P : State → Prop) : Micro → Prop
  | .more _ s => P s
  | .done s => P s
  | .halt f => f ≠ .trapWithoutObserver .decodeFailure

/-- A cycle keeps a predicate. -/
def Cycle.Keeps (P : State → Prop) (c : Cycle) : Prop := ∀ q s, P s → Micro.All P (c q s)

/-- Every cycle of a list keeps a predicate. -/
def CyclesKeep (P : State → Prop) (cs : List Cycle) : Prop := ∀ c ∈ cs, Cycle.Keeps P c

/-- A function on states keeps a predicate. -/
def FnKeeps (P : State → Prop) (f : State → State) : Prop := ∀ s, P s → P (f s)

/-- A read's operation keeps a predicate. -/
def ReadKeeps (P : State → Prop) (op : ReadOp) : Prop := ∀ m s, P s → P (op m s)

/-- A read-modify-write operation keeps a predicate. -/
def RmwKeeps (P : State → Prop) (f : RmwOp) : Prop := ∀ m s, P s → P (f m s).2

/-- A bus read keeps a predicate. -/
def BusReadKeeps (P : State → Prop) : Prop := ∀ a s, P s → P (busRead a s).2

/-- A bus write that does not halt the block keeps a predicate. -/
def BusWriteKeeps (P : State → Prop) : Prop := ∀ a v s t, busWrite a v s = .ok t → P s → P t

variable {P : State → Prop}

theorem Micro.All.andThen {x : Micro} {k : Cycle} (hx : Micro.All P x) (hk : Cycle.Keeps P k) :
    Micro.All P (x.andThen k) := by
  cases x with
  | more q s => exact hk q s hx
  | done s => exact hx
  | halt f => exact hx

theorem goOn_keeps : Cycle.Keeps P goOn := fun _ _ h => h

theorem runCycles_keeps {cs : List Cycle} (h : CyclesKeep P cs) : Cycle.Keeps P (runCycles cs) := by
  induction cs with
  | nil => exact goOn_keeps
  | cons c cs ih =>
    intro q s hs
    exact (h c (List.mem_cons_self ..) q s hs).andThen (ih fun d hd => h d (List.mem_cons_of_mem _ hd))

theorem cyclesKeep_nil : CyclesKeep P [] := fun _ h => by cases h

theorem cyclesKeep_cons {c : Cycle} {cs : List Cycle} (hc : Cycle.Keeps P c) (hcs : CyclesKeep P cs) :
    CyclesKeep P (c :: cs) := by
  intro d hd
  cases hd with
  | head => exact hc
  | tail _ h => exact hcs d h

theorem cyclesKeep_append {cs ds : List Cycle} (hc : CyclesKeep P cs) (hd : CyclesKeep P ds) :
    CyclesKeep P (cs ++ ds) := by
  intro c h
  rcases List.mem_append.mp h with h | h
  · exact hc c h
  · exact hd c h

theorem cyclesKeep_drop {cs : List Cycle} (h : CyclesKeep P cs) (n : Nat) : CyclesKeep P (cs.drop n) :=
  fun c hc => h c (List.mem_of_mem_drop hc)

/-! ## The cycles' two accesses -/

theorem rd_keeps (hr : BusReadKeeps P) {a : Addr} {s : State} {k : Byte → State → Micro} (hs : P s)
    (hk : ∀ v t, P t → Micro.All P (k v t)) : Micro.All P (rd a s k) := hk _ _ (hr a s hs)

theorem wr_keeps (hw : BusWriteKeeps P) {a : Addr} {v : Byte} {s : State} {k : State → Micro} (hs : P s)
    (hk : ∀ t, P t → Micro.All P (k t)) : Micro.All P (wr a v s k) := by
  unfold wr
  cases h : busWrite a v s with
  | ok t => exact hk t (hw a v s t h hs)
  | error f => exact busWrite_error h

theorem dummyPC_keeps (hr : BusReadKeeps P) {k : Cycle} (hk : Cycle.Keeps P k) : Cycle.Keeps P (dummyPC k) :=
  fun q _ hs => rd_keeps hr hs fun _ t ht => hk q t ht

theorem pushCycle_keeps (hw : BusWriteKeeps P) (hS : ∀ s sp, P s → P { s with S := sp }) {v : State → Byte} {k : Cycle}
    (hk : Cycle.Keeps P k) : Cycle.Keeps P (pushCycle v k) :=
  fun q _ hs => wr_keeps hw hs fun t ht => hk q _ (hS t _ ht)

theorem pullCycle_keeps (hr : BusReadKeeps P) (hS : ∀ s sp, P s → P { s with S := sp }) {k : Byte → Cycle}
    (hk : ∀ v, Cycle.Keeps P (k v)) : Cycle.Keeps P (pullCycle k) :=
  fun q _ hs => rd_keeps hr hs fun v t ht => hk v q _ (hS t _ ht)

theorem stackCycle_keeps (hr : BusReadKeeps P) {k : Byte → Cycle} (hk : ∀ v, Cycle.Keeps P (k v)) :
    Cycle.Keeps P (stackCycle k) := fun q _ hs => rd_keeps hr hs fun v t ht => hk v q t ht

/-! ## Addressing modes and operand classes -/

theorem latch_keeps (md : Mode) : Cycle.Keeps P md.latch := by
  intro q s hs
  cases md <;> exact hs

theorem zeroPageIndexCycle_keeps (hr : BusReadKeeps P) (i : State → Byte) : Cycle.Keeps P (zeroPageIndexCycle i) :=
  fun _ _ hs => rd_keeps hr hs fun _ _ ht => ht

theorem uncorrectedCycle_keeps (hr : BusReadKeeps P) (i : State → Byte) : Cycle.Keeps P (uncorrectedCycle i) :=
  fun _ _ hs => rd_keeps hr hs fun _ _ ht => ht

theorem pointerXCycles_keep (hr : BusReadKeeps P) : CyclesKeep P pointerXCycles := by
  refine cyclesKeep_cons ?_ (cyclesKeep_cons ?_ (cyclesKeep_cons ?_ cyclesKeep_nil)) <;>
    exact fun _ _ hs => rd_keeps hr hs fun _ _ ht => ht

theorem pointerYCycles_keep (hr : BusReadKeeps P) : CyclesKeep P pointerYCycles := by
  refine cyclesKeep_cons ?_ (cyclesKeep_cons ?_ cyclesKeep_nil) <;>
    exact fun _ _ hs => rd_keeps hr hs fun _ _ ht => ht

theorem addressCycles_keep (hr : BusReadKeeps P) (md : Mode) : CyclesKeep P md.addressCycles := by
  cases md with
  | imm => exact cyclesKeep_nil
  | zp => exact cyclesKeep_nil
  | zpx => exact cyclesKeep_cons (zeroPageIndexCycle_keeps hr _) cyclesKeep_nil
  | zpy => exact cyclesKeep_cons (zeroPageIndexCycle_keeps hr _) cyclesKeep_nil
  | abs => exact cyclesKeep_nil
  | abx => exact cyclesKeep_cons (uncorrectedCycle_keeps hr _) cyclesKeep_nil
  | aby => exact cyclesKeep_cons (uncorrectedCycle_keeps hr _) cyclesKeep_nil
  | izx => exact pointerXCycles_keep hr
  | izy => exact cyclesKeep_append (pointerYCycles_keep hr) (cyclesKeep_cons (uncorrectedCycle_keeps hr _) cyclesKeep_nil)

theorem readCycle_keeps (hr : BusReadKeeps P) {op : ReadOp} (ho : ReadKeeps P op) : Cycle.Keeps P (readCycle op) :=
  fun _ _ hs => rd_keeps hr hs fun v t ht => ho v t ht

theorem correctableCycle_keeps (hr : BusReadKeeps P) (i : State → Byte) {op : ReadOp} (ho : ReadKeeps P op) :
    Cycle.Keeps P (correctableCycle i op) := by
  intro q s hs
  refine rd_keeps hr hs fun v t ht => ?_
  split
  · exact ht
  · exact ho v t ht

theorem readCycles_keep (hr : BusReadKeeps P) (md : Mode) {op : ReadOp} (ho : ReadKeeps P op) :
    CyclesKeep P (md.readCycles op) := by
  have last : CyclesKeep P [readCycle op] := cyclesKeep_cons (readCycle_keeps hr ho) cyclesKeep_nil
  cases md with
  | imm => exact cyclesKeep_nil
  | zp => exact last
  | zpx => exact cyclesKeep_cons (zeroPageIndexCycle_keeps hr _) last
  | zpy => exact cyclesKeep_cons (zeroPageIndexCycle_keeps hr _) last
  | abs => exact last
  | abx => exact cyclesKeep_cons (correctableCycle_keeps hr _ ho) last
  | aby => exact cyclesKeep_cons (correctableCycle_keeps hr _ ho) last
  | izx => exact cyclesKeep_append (pointerXCycles_keep hr) last
  | izy => exact cyclesKeep_append (pointerYCycles_keep hr) (cyclesKeep_cons (correctableCycle_keeps hr _ ho) last)

/-- A table keeps a predicate: the end of its operand fetch does, and every cycle after it. -/
def Prog.Keeps (P : State → Prop) (p : Prog) : Prop := Cycle.Keeps P p.fin ∧ CyclesKeep P p.tail

theorem readProg_keeps (hr : BusReadKeeps P) (ir : Byte) (md : Mode) {op : ReadOp} (ho : ReadKeeps P op) :
    (readProg ir md op).Keeps P := by
  refine ⟨fun q s hs => ?_, readCycles_keep hr md ho⟩
  show Micro.All P (md.readFin op q s)
  unfold Mode.readFin
  split
  · exact ho _ s hs
  · exact latch_keeps md q s hs

theorem writeProg_keeps (hr : BusReadKeeps P) (hw : BusWriteKeeps P) (ir : Byte) (md : Mode) (reg : State → Byte) :
    (writeProg ir md reg).Keeps P :=
  ⟨latch_keeps md, cyclesKeep_append (addressCycles_keep hr md)
    (cyclesKeep_cons (fun _ _ hs => wr_keeps hw hs fun _ ht => ht) cyclesKeep_nil)⟩

theorem rmwProg_keeps (hr : BusReadKeeps P) (hw : BusWriteKeeps P) (ir : Byte) (md : Mode) {f : RmwOp}
    (hf : RmwKeeps P f) : (rmwProg ir md f).Keeps P :=
  ⟨latch_keeps md, cyclesKeep_append (addressCycles_keep hr md)
    (cyclesKeep_cons (fun _ _ hs => rd_keeps hr hs fun _ _ ht => ht)
      (cyclesKeep_cons (fun _ _ hs => wr_keeps hw hs fun _ ht => ht)
        (cyclesKeep_cons (fun _ _ hs => wr_keeps hw hs fun t ht => hf _ t ht) cyclesKeep_nil)))⟩

theorem impliedProg_keeps (hr : BusReadKeeps P) (ir : Byte) {op : State → State} (ho : FnKeeps P op) :
    (impliedProg ir op).Keeps P :=
  ⟨goOn_keeps, cyclesKeep_cons (dummyPC_keeps hr fun _ s hs => ho s hs) cyclesKeep_nil⟩

theorem branchProg_keeps (hr : BusReadKeeps P) (hPC : ∀ s pc, P s → P { s with PC := pc }) (ir : Byte)
    (cond : Flags → Bool) : (branchProg ir cond).Keeps P := by
  refine ⟨fun q s hs => ?_, cyclesKeep_cons (fun q s hs => ?_) (cyclesKeep_cons (fun q s hs => ?_) cyclesKeep_nil)⟩
  · show Micro.All P (if cond s.P then _ else _)
    split <;> exact hs
  · refine rd_keeps hr hs fun v t ht => ?_
    dsimp only
    split <;> exact hPC t _ ht
  · exact rd_keeps hr hs fun v t ht => hPC t _ ht

/-! ## The shared sequences -/

theorem vectorCycles_keep (hr : BusReadKeeps P) (hP : ∀ s, P s → P { s with P := { s.P with I := true } })
    (hPC : ∀ s pc, P s → P { s with PC := pc }) (vec : Addr) : CyclesKeep P (vectorCycles vec) :=
  cyclesKeep_cons (fun _ _ hs => rd_keeps hr hs fun _ t ht => hP t ht)
    (cyclesKeep_cons (fun _ _ hs => rd_keeps hr hs fun _ t ht => hPC t _ ht) cyclesKeep_nil)

theorem entryCycles_keep (hr : BusReadKeeps P) (hw : BusWriteKeeps P) (hS : ∀ s sp, P s → P { s with S := sp })
    (hP : ∀ s, P s → P { s with P := { s.P with I := true } }) (hPC : ∀ s pc, P s → P { s with PC := pc }) (b : Bool)
    (vec : Addr) : CyclesKeep P (entryCycles b vec) :=
  cyclesKeep_append
    (cyclesKeep_cons (pushCycle_keeps hw hS goOn_keeps) (cyclesKeep_cons (pushCycle_keeps hw hS goOn_keeps)
      (cyclesKeep_cons (pushCycle_keeps hw hS goOn_keeps) cyclesKeep_nil)))
    (vectorCycles_keep hr hP hPC vec)

theorem returnCycles_keep (hr : BusReadKeeps P) (hS : ∀ s sp, P s → P { s with S := sp })
    (hP : ∀ s p, P s → P { s with P := p }) (hPC : ∀ s pc, P s → P { s with PC := pc }) : CyclesKeep P returnCycles :=
  cyclesKeep_cons (dummyPC_keeps hr goOn_keeps) (cyclesKeep_cons (pullCycle_keeps hr hS fun _ => goOn_keeps)
    (cyclesKeep_cons (pullCycle_keeps hr hS fun _ _ t ht => hP t _ ht)
      (cyclesKeep_cons (pullCycle_keeps hr hS fun _ _ _ ht => ht)
        (cyclesKeep_cons (stackCycle_keeps hr fun _ _ t ht => hPC t _ ht) cyclesKeep_nil))))

theorem returnSubCycles_keep (hr : BusReadKeeps P) (hS : ∀ s sp, P s → P { s with S := sp })
    (hPC : ∀ s pc, P s → P { s with PC := pc }) : CyclesKeep P returnSubCycles :=
  cyclesKeep_cons (dummyPC_keeps hr goOn_keeps) (cyclesKeep_cons (pullCycle_keeps hr hS fun _ => goOn_keeps)
    (cyclesKeep_cons (pullCycle_keeps hr hS fun _ _ _ ht => ht)
      (cyclesKeep_cons (stackCycle_keeps hr fun _ _ t ht => hPC t _ ht)
        (cyclesKeep_cons (dummyPC_keeps hr fun _ t ht => hPC t _ ht) cyclesKeep_nil))))

theorem callCycles_keep (hr : BusReadKeeps P) (hw : BusWriteKeeps P) (hS : ∀ s sp, P s → P { s with S := sp })
    (hPC : ∀ s pc, P s → P { s with PC := pc }) : CyclesKeep P callCycles :=
  cyclesKeep_cons (stackCycle_keeps hr fun _ => goOn_keeps) (cyclesKeep_cons (pushCycle_keeps hw hS goOn_keeps)
    (cyclesKeep_cons (pushCycle_keeps hw hS goOn_keeps)
      (cyclesKeep_cons (fun _ _ hs => rd_keeps hr hs fun _ t ht => hPC t _ ht) cyclesKeep_nil)))

theorem pushTable_keeps (hr : BusReadKeeps P) (hw : BusWriteKeeps P) (hS : ∀ s sp, P s → P { s with S := sp })
    (v : State → Byte) : CyclesKeep P (pushTable v) :=
  cyclesKeep_cons (dummyPC_keeps hr goOn_keeps)
    (cyclesKeep_cons (pushCycle_keeps hw hS fun _ _ ht => ht) cyclesKeep_nil)

theorem pullTable_keeps (hr : BusReadKeeps P) (hS : ∀ s sp, P s → P { s with S := sp }) {op : ReadOp}
    (ho : ReadKeeps P op) : CyclesKeep P (pullTable op) :=
  cyclesKeep_cons (dummyPC_keeps hr goOn_keeps) (cyclesKeep_cons (pullCycle_keeps hr hS fun _ => goOn_keeps)
    (cyclesKeep_cons (stackCycle_keeps hr fun v _ t ht => ho v t ht) cyclesKeep_nil))

theorem jumpIndirectCycles_keep (hr : BusReadKeeps P) (hPC : ∀ s pc, P s → P { s with PC := pc }) :
    CyclesKeep P jumpIndirectCycles :=
  cyclesKeep_cons (fun _ _ hs => rd_keeps hr hs fun _ _ ht => ht)
    (cyclesKeep_cons (fun _ _ hs => rd_keeps hr hs fun _ t ht => hPC t _ ht) cyclesKeep_nil)

/-! ## From a table to `exec` -/

/-- The table of an opcode, if it has one. -/
def OpEntry.prog? : OpEntry → Option Prog
  | .documented p => some p
  | .annex p => some p
  | .unstable => none

/-- Every table of an entry keeps a predicate. -/
def OpEntry.Keeps (P : State → Prop) : OpEntry → Prop
  | .documented p => p.Keeps P
  | .annex p => p.Keeps P
  | .unstable => True

theorem close_keeps (hp : ∀ s ph b, P s → P { s with phase := ph, boundary := b }) {ir : SeqKind} {n : Nat} {x : Micro}
    {t : State} (hx : Micro.All P x) (ht : close ir n x = .next t) : P t := by
  cases x with
  | more q u => cases ht; exact hp u _ _ hx
  | done u => cases ht; exact hp u _ _ hx
  | halt f => cases ht

theorem close_fault {ir : SeqKind} {n : Nat} {x : Micro} {f : Fault} (hx : Micro.All P x) (ht : close ir n x = .fault f) :
    f ≠ .trapWithoutObserver .decodeFailure := by
  cases x with
  | more q u => cases ht
  | done u => cases ht
  | halt g => cases ht; exact hx

/-- An instruction whose table keeps a predicate halts the block by no decode failure (R361). -/
theorem exec_fault {i : Instr} (h : (instrEntry i).Keeps P) {s : State} {f : Fault} (hs : P s)
    (ht : exec i s = .fault f) : f ≠ .trapWithoutObserver .decodeFailure := by
  have key : ∀ p : Prog, p.Keeps P → p.run (startLatches i) s = .fault f → f ≠ .trapWithoutObserver .decodeFailure :=
    fun p hk hrun => close_fault ((hk.1 _ s hs).andThen (runCycles_keeps hk.2)) hrun
  rw [exec_eq_run] at ht
  cases he : instrEntry i with
  | documented p => rw [he] at ht h; exact key p h ht
  | annex p =>
    rw [he] at ht h
    unfold OpEntry.run annexed at ht
    dsimp only at ht
    split at ht
    · cases ht
    · exact key p h ht
  | unstable => rw [he] at ht; cases ht

/-- An instruction whose table keeps a predicate keeps it, if the sequencer's own updates do. -/
theorem exec_keeps {i : Instr} (h : (instrEntry i).Keeps P)
    (hp : ∀ s ph b, P s → P { s with phase := ph, boundary := b }) {s t : State} (hs : P s)
    (ht : exec i s = .next t) : P t := by
  have key : ∀ p : Prog, p.Keeps P → p.run (startLatches i) s = .next t → P t := fun p hk hrun =>
    close_keeps hp ((hk.1 _ s hs).andThen (runCycles_keeps hk.2)) hrun
  rw [exec_eq_run] at ht
  cases he : instrEntry i with
  | documented p => rw [he] at ht h; exact key p h ht
  | annex p =>
    rw [he] at ht h
    unfold OpEntry.run annexed at ht
    dsimp only at ht
    split at ht
    · cases ht
    · exact key p h ht
  | unstable => rw [he] at ht; cases ht

end Sys2Proof.Machine
end

