-- ==== Sys2Proof/Laws/Opcodes.lean ====
section
/-! SUPPORT. Every opcode byte is that of some instruction (R95). -/

namespace Sys2Proof.Machine

/-- An instruction of a table entry, its operand bytes 0. -/
def formSample : Form → Instr
  | .f1 i => i
  | .f2 mk => mk 0#8
  | .f3 mk => mk 0#16

/-- The opcode byte of an entry. -/
def formByte (f : Form) : Nat := (opByte (formSample f)).toNat

theorem opcodeRow0_order : opcodeRow0.map formByte = (List.range 16).map (0 + ·) := rfl
theorem opcodeRow1_order : opcodeRow1.map formByte = (List.range 16).map (16 + ·) := rfl
theorem opcodeRow2_order : opcodeRow2.map formByte = (List.range 16).map (32 + ·) := rfl
theorem opcodeRow3_order : opcodeRow3.map formByte = (List.range 16).map (48 + ·) := rfl
theorem opcodeRow4_order : opcodeRow4.map formByte = (List.range 16).map (64 + ·) := rfl
theorem opcodeRow5_order : opcodeRow5.map formByte = (List.range 16).map (80 + ·) := rfl
theorem opcodeRow6_order : opcodeRow6.map formByte = (List.range 16).map (96 + ·) := rfl
theorem opcodeRow7_order : opcodeRow7.map formByte = (List.range 16).map (112 + ·) := rfl
theorem opcodeRow8_order : opcodeRow8.map formByte = (List.range 16).map (128 + ·) := rfl
theorem opcodeRow9_order : opcodeRow9.map formByte = (List.range 16).map (144 + ·) := rfl
theorem opcodeRowA_order : opcodeRowA.map formByte = (List.range 16).map (160 + ·) := rfl
theorem opcodeRowB_order : opcodeRowB.map formByte = (List.range 16).map (176 + ·) := rfl
theorem opcodeRowC_order : opcodeRowC.map formByte = (List.range 16).map (192 + ·) := rfl
theorem opcodeRowD_order : opcodeRowD.map formByte = (List.range 16).map (208 + ·) := rfl
theorem opcodeRowE_order : opcodeRowE.map formByte = (List.range 16).map (224 + ·) := rfl
theorem opcodeRowF_order : opcodeRowF.map formByte = (List.range 16).map (240 + ·) := rfl

set_option maxRecDepth 4000 in
/-- The 256 entries of the decoder's table stand in the order of their opcode bytes (R95, R96). -/
theorem opcodeTable_order : opcodeTable.map formByte = List.range 256 := by
  simp only [opcodeTable, List.map_append, opcodeRow0_order, opcodeRow1_order, opcodeRow2_order, opcodeRow3_order, opcodeRow4_order, opcodeRow5_order,
    opcodeRow6_order, opcodeRow7_order, opcodeRow8_order, opcodeRow9_order, opcodeRowA_order, opcodeRowB_order,
    opcodeRowC_order, opcodeRowD_order, opcodeRowE_order, opcodeRowF_order]
  rfl

/-- Every opcode byte is that of some instruction (R95). -/
theorem exists_opByte (op : Byte) : ∃ i, opByte i = op := by
  have h : (opcodeTable.map formByte)[op.toNat]? = (List.range 256)[op.toNat]? := by rw [opcodeTable_order]
  rw [List.getElem?_map, List.getElem?_range op.isLt] at h
  cases hf : opcodeTable[op.toNat]? with
  | none => rw [hf] at h; cases h
  | some f =>
    rw [hf] at h
    exact ⟨formSample f, BitVec.eq_of_toNat_eq (Option.some.inj h)⟩

end Sys2Proof.Machine
end

