-- ==== Sys2Proof/Laws/PerInstr.lean ====
section
/-! SUPPORT. Statements about every instruction as syntax, one lemma per constructor. `Length`: the encoding of an
instruction has the length that its opcode byte alone decides (R90, R91). -/

namespace Sys2Proof.Laws.Length

/-- The length of an instruction's encoding is that of its opcode byte. -/
def Statement (i : Instr) : Prop := (encode i).length = opLength ((encode i).headD 0#8)

/-- An encoding of the length of its opcode byte. -/
theorem of_bytes {i : Instr} {op : Byte} {rest : List Byte} (h : encode i = op :: rest)
    (hl : rest.length + 1 = opLength op) : Statement i := by
  unfold Statement
  rw [h]
  exact hl

theorem brk : Statement .brk := of_bytes (op := 0x00#8) rfl rfl
theorem oraIzx (d : Byte) : Statement (.oraIzx d) := of_bytes (op := 0x01#8) rfl rfl
theorem jam02 : Statement .jam02 := of_bytes (op := 0x02#8) rfl rfl
theorem sloIzx (d : Byte) : Statement (.sloIzx d) := of_bytes (op := 0x03#8) rfl rfl
theorem nopZp04 (d : Byte) : Statement (.nopZp04 d) := of_bytes (op := 0x04#8) rfl rfl
theorem oraZp (d : Byte) : Statement (.oraZp d) := of_bytes (op := 0x05#8) rfl rfl
theorem aslZp (d : Byte) : Statement (.aslZp d) := of_bytes (op := 0x06#8) rfl rfl
theorem sloZp (d : Byte) : Statement (.sloZp d) := of_bytes (op := 0x07#8) rfl rfl
theorem php : Statement .php := of_bytes (op := 0x08#8) rfl rfl
theorem oraImm (d : Byte) : Statement (.oraImm d) := of_bytes (op := 0x09#8) rfl rfl
theorem aslAcc : Statement .aslAcc := of_bytes (op := 0x0A#8) rfl rfl
theorem ancImm0B (d : Byte) : Statement (.ancImm0B d) := of_bytes (op := 0x0B#8) rfl rfl
theorem nopAbs0C (a : Addr) : Statement (.nopAbs0C a) := of_bytes (op := 0x0C#8) rfl rfl
theorem oraAbs (a : Addr) : Statement (.oraAbs a) := of_bytes (op := 0x0D#8) rfl rfl
theorem aslAbs (a : Addr) : Statement (.aslAbs a) := of_bytes (op := 0x0E#8) rfl rfl
theorem sloAbs (a : Addr) : Statement (.sloAbs a) := of_bytes (op := 0x0F#8) rfl rfl
theorem bpl (d : Byte) : Statement (.bpl d) := of_bytes (op := 0x10#8) rfl rfl
theorem oraIzy (d : Byte) : Statement (.oraIzy d) := of_bytes (op := 0x11#8) rfl rfl
theorem jam12 : Statement .jam12 := of_bytes (op := 0x12#8) rfl rfl
theorem sloIzy (d : Byte) : Statement (.sloIzy d) := of_bytes (op := 0x13#8) rfl rfl
theorem nopZpx14 (d : Byte) : Statement (.nopZpx14 d) := of_bytes (op := 0x14#8) rfl rfl
theorem oraZpx (d : Byte) : Statement (.oraZpx d) := of_bytes (op := 0x15#8) rfl rfl
theorem aslZpx (d : Byte) : Statement (.aslZpx d) := of_bytes (op := 0x16#8) rfl rfl
theorem sloZpx (d : Byte) : Statement (.sloZpx d) := of_bytes (op := 0x17#8) rfl rfl
theorem clc : Statement .clc := of_bytes (op := 0x18#8) rfl rfl
theorem oraAby (a : Addr) : Statement (.oraAby a) := of_bytes (op := 0x19#8) rfl rfl
theorem nopImp1A : Statement .nopImp1A := of_bytes (op := 0x1A#8) rfl rfl
theorem sloAby (a : Addr) : Statement (.sloAby a) := of_bytes (op := 0x1B#8) rfl rfl
theorem nopAbx1C (a : Addr) : Statement (.nopAbx1C a) := of_bytes (op := 0x1C#8) rfl rfl
theorem oraAbx (a : Addr) : Statement (.oraAbx a) := of_bytes (op := 0x1D#8) rfl rfl
theorem aslAbx (a : Addr) : Statement (.aslAbx a) := of_bytes (op := 0x1E#8) rfl rfl
theorem sloAbx (a : Addr) : Statement (.sloAbx a) := of_bytes (op := 0x1F#8) rfl rfl
theorem jsr (a : Addr) : Statement (.jsr a) := of_bytes (op := 0x20#8) rfl rfl
theorem andIzx (d : Byte) : Statement (.andIzx d) := of_bytes (op := 0x21#8) rfl rfl
theorem jam22 : Statement .jam22 := of_bytes (op := 0x22#8) rfl rfl
theorem rlaIzx (d : Byte) : Statement (.rlaIzx d) := of_bytes (op := 0x23#8) rfl rfl
theorem bitZp (d : Byte) : Statement (.bitZp d) := of_bytes (op := 0x24#8) rfl rfl
theorem andZp (d : Byte) : Statement (.andZp d) := of_bytes (op := 0x25#8) rfl rfl
theorem rolZp (d : Byte) : Statement (.rolZp d) := of_bytes (op := 0x26#8) rfl rfl
theorem rlaZp (d : Byte) : Statement (.rlaZp d) := of_bytes (op := 0x27#8) rfl rfl
theorem plp : Statement .plp := of_bytes (op := 0x28#8) rfl rfl
theorem andImm (d : Byte) : Statement (.andImm d) := of_bytes (op := 0x29#8) rfl rfl
theorem rolAcc : Statement .rolAcc := of_bytes (op := 0x2A#8) rfl rfl
theorem ancImm2B (d : Byte) : Statement (.ancImm2B d) := of_bytes (op := 0x2B#8) rfl rfl
theorem bitAbs (a : Addr) : Statement (.bitAbs a) := of_bytes (op := 0x2C#8) rfl rfl
theorem andAbs (a : Addr) : Statement (.andAbs a) := of_bytes (op := 0x2D#8) rfl rfl
theorem rolAbs (a : Addr) : Statement (.rolAbs a) := of_bytes (op := 0x2E#8) rfl rfl
theorem rlaAbs (a : Addr) : Statement (.rlaAbs a) := of_bytes (op := 0x2F#8) rfl rfl
theorem bmi (d : Byte) : Statement (.bmi d) := of_bytes (op := 0x30#8) rfl rfl
theorem andIzy (d : Byte) : Statement (.andIzy d) := of_bytes (op := 0x31#8) rfl rfl
theorem jam32 : Statement .jam32 := of_bytes (op := 0x32#8) rfl rfl
theorem rlaIzy (d : Byte) : Statement (.rlaIzy d) := of_bytes (op := 0x33#8) rfl rfl
theorem nopZpx34 (d : Byte) : Statement (.nopZpx34 d) := of_bytes (op := 0x34#8) rfl rfl
theorem andZpx (d : Byte) : Statement (.andZpx d) := of_bytes (op := 0x35#8) rfl rfl
theorem rolZpx (d : Byte) : Statement (.rolZpx d) := of_bytes (op := 0x36#8) rfl rfl
theorem rlaZpx (d : Byte) : Statement (.rlaZpx d) := of_bytes (op := 0x37#8) rfl rfl
theorem sec : Statement .sec := of_bytes (op := 0x38#8) rfl rfl
theorem andAby (a : Addr) : Statement (.andAby a) := of_bytes (op := 0x39#8) rfl rfl
theorem nopImp3A : Statement .nopImp3A := of_bytes (op := 0x3A#8) rfl rfl
theorem rlaAby (a : Addr) : Statement (.rlaAby a) := of_bytes (op := 0x3B#8) rfl rfl
theorem nopAbx3C (a : Addr) : Statement (.nopAbx3C a) := of_bytes (op := 0x3C#8) rfl rfl
theorem andAbx (a : Addr) : Statement (.andAbx a) := of_bytes (op := 0x3D#8) rfl rfl
theorem rolAbx (a : Addr) : Statement (.rolAbx a) := of_bytes (op := 0x3E#8) rfl rfl
theorem rlaAbx (a : Addr) : Statement (.rlaAbx a) := of_bytes (op := 0x3F#8) rfl rfl
theorem rti : Statement .rti := of_bytes (op := 0x40#8) rfl rfl
theorem eorIzx (d : Byte) : Statement (.eorIzx d) := of_bytes (op := 0x41#8) rfl rfl
theorem jam42 : Statement .jam42 := of_bytes (op := 0x42#8) rfl rfl
theorem sreIzx (d : Byte) : Statement (.sreIzx d) := of_bytes (op := 0x43#8) rfl rfl
theorem nopZp44 (d : Byte) : Statement (.nopZp44 d) := of_bytes (op := 0x44#8) rfl rfl
theorem eorZp (d : Byte) : Statement (.eorZp d) := of_bytes (op := 0x45#8) rfl rfl
theorem lsrZp (d : Byte) : Statement (.lsrZp d) := of_bytes (op := 0x46#8) rfl rfl
theorem sreZp (d : Byte) : Statement (.sreZp d) := of_bytes (op := 0x47#8) rfl rfl
theorem pha : Statement .pha := of_bytes (op := 0x48#8) rfl rfl
theorem eorImm (d : Byte) : Statement (.eorImm d) := of_bytes (op := 0x49#8) rfl rfl
theorem lsrAcc : Statement .lsrAcc := of_bytes (op := 0x4A#8) rfl rfl
theorem alrImm (d : Byte) : Statement (.alrImm d) := of_bytes (op := 0x4B#8) rfl rfl
theorem jmpAbs (a : Addr) : Statement (.jmpAbs a) := of_bytes (op := 0x4C#8) rfl rfl
theorem eorAbs (a : Addr) : Statement (.eorAbs a) := of_bytes (op := 0x4D#8) rfl rfl
theorem lsrAbs (a : Addr) : Statement (.lsrAbs a) := of_bytes (op := 0x4E#8) rfl rfl
theorem sreAbs (a : Addr) : Statement (.sreAbs a) := of_bytes (op := 0x4F#8) rfl rfl
theorem bvc (d : Byte) : Statement (.bvc d) := of_bytes (op := 0x50#8) rfl rfl
theorem eorIzy (d : Byte) : Statement (.eorIzy d) := of_bytes (op := 0x51#8) rfl rfl
theorem jam52 : Statement .jam52 := of_bytes (op := 0x52#8) rfl rfl
theorem sreIzy (d : Byte) : Statement (.sreIzy d) := of_bytes (op := 0x53#8) rfl rfl
theorem nopZpx54 (d : Byte) : Statement (.nopZpx54 d) := of_bytes (op := 0x54#8) rfl rfl
theorem eorZpx (d : Byte) : Statement (.eorZpx d) := of_bytes (op := 0x55#8) rfl rfl
theorem lsrZpx (d : Byte) : Statement (.lsrZpx d) := of_bytes (op := 0x56#8) rfl rfl
theorem sreZpx (d : Byte) : Statement (.sreZpx d) := of_bytes (op := 0x57#8) rfl rfl
theorem cli : Statement .cli := of_bytes (op := 0x58#8) rfl rfl
theorem eorAby (a : Addr) : Statement (.eorAby a) := of_bytes (op := 0x59#8) rfl rfl
theorem nopImp5A : Statement .nopImp5A := of_bytes (op := 0x5A#8) rfl rfl
theorem sreAby (a : Addr) : Statement (.sreAby a) := of_bytes (op := 0x5B#8) rfl rfl
theorem nopAbx5C (a : Addr) : Statement (.nopAbx5C a) := of_bytes (op := 0x5C#8) rfl rfl
theorem eorAbx (a : Addr) : Statement (.eorAbx a) := of_bytes (op := 0x5D#8) rfl rfl
theorem lsrAbx (a : Addr) : Statement (.lsrAbx a) := of_bytes (op := 0x5E#8) rfl rfl
theorem sreAbx (a : Addr) : Statement (.sreAbx a) := of_bytes (op := 0x5F#8) rfl rfl
theorem rts : Statement .rts := of_bytes (op := 0x60#8) rfl rfl
theorem adcIzx (d : Byte) : Statement (.adcIzx d) := of_bytes (op := 0x61#8) rfl rfl
theorem jam62 : Statement .jam62 := of_bytes (op := 0x62#8) rfl rfl
theorem rraIzx (d : Byte) : Statement (.rraIzx d) := of_bytes (op := 0x63#8) rfl rfl
theorem nopZp64 (d : Byte) : Statement (.nopZp64 d) := of_bytes (op := 0x64#8) rfl rfl
theorem adcZp (d : Byte) : Statement (.adcZp d) := of_bytes (op := 0x65#8) rfl rfl
theorem rorZp (d : Byte) : Statement (.rorZp d) := of_bytes (op := 0x66#8) rfl rfl
theorem rraZp (d : Byte) : Statement (.rraZp d) := of_bytes (op := 0x67#8) rfl rfl
theorem pla : Statement .pla := of_bytes (op := 0x68#8) rfl rfl
theorem adcImm (d : Byte) : Statement (.adcImm d) := of_bytes (op := 0x69#8) rfl rfl
theorem rorAcc : Statement .rorAcc := of_bytes (op := 0x6A#8) rfl rfl
theorem arrImm (d : Byte) : Statement (.arrImm d) := of_bytes (op := 0x6B#8) rfl rfl
theorem jmpInd (a : Addr) : Statement (.jmpInd a) := of_bytes (op := 0x6C#8) rfl rfl
theorem adcAbs (a : Addr) : Statement (.adcAbs a) := of_bytes (op := 0x6D#8) rfl rfl
theorem rorAbs (a : Addr) : Statement (.rorAbs a) := of_bytes (op := 0x6E#8) rfl rfl
theorem rraAbs (a : Addr) : Statement (.rraAbs a) := of_bytes (op := 0x6F#8) rfl rfl
theorem bvs (d : Byte) : Statement (.bvs d) := of_bytes (op := 0x70#8) rfl rfl
theorem adcIzy (d : Byte) : Statement (.adcIzy d) := of_bytes (op := 0x71#8) rfl rfl
theorem jam72 : Statement .jam72 := of_bytes (op := 0x72#8) rfl rfl
theorem rraIzy (d : Byte) : Statement (.rraIzy d) := of_bytes (op := 0x73#8) rfl rfl
theorem nopZpx74 (d : Byte) : Statement (.nopZpx74 d) := of_bytes (op := 0x74#8) rfl rfl
theorem adcZpx (d : Byte) : Statement (.adcZpx d) := of_bytes (op := 0x75#8) rfl rfl
theorem rorZpx (d : Byte) : Statement (.rorZpx d) := of_bytes (op := 0x76#8) rfl rfl
theorem rraZpx (d : Byte) : Statement (.rraZpx d) := of_bytes (op := 0x77#8) rfl rfl
theorem sei : Statement .sei := of_bytes (op := 0x78#8) rfl rfl
theorem adcAby (a : Addr) : Statement (.adcAby a) := of_bytes (op := 0x79#8) rfl rfl
theorem nopImp7A : Statement .nopImp7A := of_bytes (op := 0x7A#8) rfl rfl
theorem rraAby (a : Addr) : Statement (.rraAby a) := of_bytes (op := 0x7B#8) rfl rfl
theorem nopAbx7C (a : Addr) : Statement (.nopAbx7C a) := of_bytes (op := 0x7C#8) rfl rfl
theorem adcAbx (a : Addr) : Statement (.adcAbx a) := of_bytes (op := 0x7D#8) rfl rfl
theorem rorAbx (a : Addr) : Statement (.rorAbx a) := of_bytes (op := 0x7E#8) rfl rfl
theorem rraAbx (a : Addr) : Statement (.rraAbx a) := of_bytes (op := 0x7F#8) rfl rfl
theorem nopImm80 (d : Byte) : Statement (.nopImm80 d) := of_bytes (op := 0x80#8) rfl rfl
theorem staIzx (d : Byte) : Statement (.staIzx d) := of_bytes (op := 0x81#8) rfl rfl
theorem nopImm82 (d : Byte) : Statement (.nopImm82 d) := of_bytes (op := 0x82#8) rfl rfl
theorem saxIzx (d : Byte) : Statement (.saxIzx d) := of_bytes (op := 0x83#8) rfl rfl
theorem styZp (d : Byte) : Statement (.styZp d) := of_bytes (op := 0x84#8) rfl rfl
theorem staZp (d : Byte) : Statement (.staZp d) := of_bytes (op := 0x85#8) rfl rfl
theorem stxZp (d : Byte) : Statement (.stxZp d) := of_bytes (op := 0x86#8) rfl rfl
theorem saxZp (d : Byte) : Statement (.saxZp d) := of_bytes (op := 0x87#8) rfl rfl
theorem dey : Statement .dey := of_bytes (op := 0x88#8) rfl rfl
theorem nopImm89 (d : Byte) : Statement (.nopImm89 d) := of_bytes (op := 0x89#8) rfl rfl
theorem txa : Statement .txa := of_bytes (op := 0x8A#8) rfl rfl
theorem aneImm (d : Byte) : Statement (.aneImm d) := of_bytes (op := 0x8B#8) rfl rfl
theorem styAbs (a : Addr) : Statement (.styAbs a) := of_bytes (op := 0x8C#8) rfl rfl
theorem staAbs (a : Addr) : Statement (.staAbs a) := of_bytes (op := 0x8D#8) rfl rfl
theorem stxAbs (a : Addr) : Statement (.stxAbs a) := of_bytes (op := 0x8E#8) rfl rfl
theorem saxAbs (a : Addr) : Statement (.saxAbs a) := of_bytes (op := 0x8F#8) rfl rfl
theorem bcc (d : Byte) : Statement (.bcc d) := of_bytes (op := 0x90#8) rfl rfl
theorem staIzy (d : Byte) : Statement (.staIzy d) := of_bytes (op := 0x91#8) rfl rfl
theorem jam92 : Statement .jam92 := of_bytes (op := 0x92#8) rfl rfl
theorem shaIzy (d : Byte) : Statement (.shaIzy d) := of_bytes (op := 0x93#8) rfl rfl
theorem styZpx (d : Byte) : Statement (.styZpx d) := of_bytes (op := 0x94#8) rfl rfl
theorem staZpx (d : Byte) : Statement (.staZpx d) := of_bytes (op := 0x95#8) rfl rfl
theorem stxZpy (d : Byte) : Statement (.stxZpy d) := of_bytes (op := 0x96#8) rfl rfl
theorem saxZpy (d : Byte) : Statement (.saxZpy d) := of_bytes (op := 0x97#8) rfl rfl
theorem tya : Statement .tya := of_bytes (op := 0x98#8) rfl rfl
theorem staAby (a : Addr) : Statement (.staAby a) := of_bytes (op := 0x99#8) rfl rfl
theorem txs : Statement .txs := of_bytes (op := 0x9A#8) rfl rfl
theorem tasAby (a : Addr) : Statement (.tasAby a) := of_bytes (op := 0x9B#8) rfl rfl
theorem shyAbx (a : Addr) : Statement (.shyAbx a) := of_bytes (op := 0x9C#8) rfl rfl
theorem staAbx (a : Addr) : Statement (.staAbx a) := of_bytes (op := 0x9D#8) rfl rfl
theorem shxAby (a : Addr) : Statement (.shxAby a) := of_bytes (op := 0x9E#8) rfl rfl
theorem shaAby (a : Addr) : Statement (.shaAby a) := of_bytes (op := 0x9F#8) rfl rfl
theorem ldyImm (d : Byte) : Statement (.ldyImm d) := of_bytes (op := 0xA0#8) rfl rfl
theorem ldaIzx (d : Byte) : Statement (.ldaIzx d) := of_bytes (op := 0xA1#8) rfl rfl
theorem ldxImm (d : Byte) : Statement (.ldxImm d) := of_bytes (op := 0xA2#8) rfl rfl
theorem laxIzx (d : Byte) : Statement (.laxIzx d) := of_bytes (op := 0xA3#8) rfl rfl
theorem ldyZp (d : Byte) : Statement (.ldyZp d) := of_bytes (op := 0xA4#8) rfl rfl
theorem ldaZp (d : Byte) : Statement (.ldaZp d) := of_bytes (op := 0xA5#8) rfl rfl
theorem ldxZp (d : Byte) : Statement (.ldxZp d) := of_bytes (op := 0xA6#8) rfl rfl
theorem laxZp (d : Byte) : Statement (.laxZp d) := of_bytes (op := 0xA7#8) rfl rfl
theorem tay : Statement .tay := of_bytes (op := 0xA8#8) rfl rfl
theorem ldaImm (d : Byte) : Statement (.ldaImm d) := of_bytes (op := 0xA9#8) rfl rfl
theorem tax : Statement .tax := of_bytes (op := 0xAA#8) rfl rfl
theorem lxaImm (d : Byte) : Statement (.lxaImm d) := of_bytes (op := 0xAB#8) rfl rfl
theorem ldyAbs (a : Addr) : Statement (.ldyAbs a) := of_bytes (op := 0xAC#8) rfl rfl
theorem ldaAbs (a : Addr) : Statement (.ldaAbs a) := of_bytes (op := 0xAD#8) rfl rfl
theorem ldxAbs (a : Addr) : Statement (.ldxAbs a) := of_bytes (op := 0xAE#8) rfl rfl
theorem laxAbs (a : Addr) : Statement (.laxAbs a) := of_bytes (op := 0xAF#8) rfl rfl
theorem bcs (d : Byte) : Statement (.bcs d) := of_bytes (op := 0xB0#8) rfl rfl
theorem ldaIzy (d : Byte) : Statement (.ldaIzy d) := of_bytes (op := 0xB1#8) rfl rfl
theorem jamB2 : Statement .jamB2 := of_bytes (op := 0xB2#8) rfl rfl
theorem laxIzy (d : Byte) : Statement (.laxIzy d) := of_bytes (op := 0xB3#8) rfl rfl
theorem ldyZpx (d : Byte) : Statement (.ldyZpx d) := of_bytes (op := 0xB4#8) rfl rfl
theorem ldaZpx (d : Byte) : Statement (.ldaZpx d) := of_bytes (op := 0xB5#8) rfl rfl
theorem ldxZpy (d : Byte) : Statement (.ldxZpy d) := of_bytes (op := 0xB6#8) rfl rfl
theorem laxZpy (d : Byte) : Statement (.laxZpy d) := of_bytes (op := 0xB7#8) rfl rfl
theorem clv : Statement .clv := of_bytes (op := 0xB8#8) rfl rfl
theorem ldaAby (a : Addr) : Statement (.ldaAby a) := of_bytes (op := 0xB9#8) rfl rfl
theorem tsx : Statement .tsx := of_bytes (op := 0xBA#8) rfl rfl
theorem lasAby (a : Addr) : Statement (.lasAby a) := of_bytes (op := 0xBB#8) rfl rfl
theorem ldyAbx (a : Addr) : Statement (.ldyAbx a) := of_bytes (op := 0xBC#8) rfl rfl
theorem ldaAbx (a : Addr) : Statement (.ldaAbx a) := of_bytes (op := 0xBD#8) rfl rfl
theorem ldxAby (a : Addr) : Statement (.ldxAby a) := of_bytes (op := 0xBE#8) rfl rfl
theorem laxAby (a : Addr) : Statement (.laxAby a) := of_bytes (op := 0xBF#8) rfl rfl
theorem cpyImm (d : Byte) : Statement (.cpyImm d) := of_bytes (op := 0xC0#8) rfl rfl
theorem cmpIzx (d : Byte) : Statement (.cmpIzx d) := of_bytes (op := 0xC1#8) rfl rfl
theorem nopImmC2 (d : Byte) : Statement (.nopImmC2 d) := of_bytes (op := 0xC2#8) rfl rfl
theorem dcpIzx (d : Byte) : Statement (.dcpIzx d) := of_bytes (op := 0xC3#8) rfl rfl
theorem cpyZp (d : Byte) : Statement (.cpyZp d) := of_bytes (op := 0xC4#8) rfl rfl
theorem cmpZp (d : Byte) : Statement (.cmpZp d) := of_bytes (op := 0xC5#8) rfl rfl
theorem decZp (d : Byte) : Statement (.decZp d) := of_bytes (op := 0xC6#8) rfl rfl
theorem dcpZp (d : Byte) : Statement (.dcpZp d) := of_bytes (op := 0xC7#8) rfl rfl
theorem iny : Statement .iny := of_bytes (op := 0xC8#8) rfl rfl
theorem cmpImm (d : Byte) : Statement (.cmpImm d) := of_bytes (op := 0xC9#8) rfl rfl
theorem dex : Statement .dex := of_bytes (op := 0xCA#8) rfl rfl
theorem sbxImm (d : Byte) : Statement (.sbxImm d) := of_bytes (op := 0xCB#8) rfl rfl
theorem cpyAbs (a : Addr) : Statement (.cpyAbs a) := of_bytes (op := 0xCC#8) rfl rfl
theorem cmpAbs (a : Addr) : Statement (.cmpAbs a) := of_bytes (op := 0xCD#8) rfl rfl
theorem decAbs (a : Addr) : Statement (.decAbs a) := of_bytes (op := 0xCE#8) rfl rfl
theorem dcpAbs (a : Addr) : Statement (.dcpAbs a) := of_bytes (op := 0xCF#8) rfl rfl
theorem bne (d : Byte) : Statement (.bne d) := of_bytes (op := 0xD0#8) rfl rfl
theorem cmpIzy (d : Byte) : Statement (.cmpIzy d) := of_bytes (op := 0xD1#8) rfl rfl
theorem jamD2 : Statement .jamD2 := of_bytes (op := 0xD2#8) rfl rfl
theorem dcpIzy (d : Byte) : Statement (.dcpIzy d) := of_bytes (op := 0xD3#8) rfl rfl
theorem nopZpxD4 (d : Byte) : Statement (.nopZpxD4 d) := of_bytes (op := 0xD4#8) rfl rfl
theorem cmpZpx (d : Byte) : Statement (.cmpZpx d) := of_bytes (op := 0xD5#8) rfl rfl
theorem decZpx (d : Byte) : Statement (.decZpx d) := of_bytes (op := 0xD6#8) rfl rfl
theorem dcpZpx (d : Byte) : Statement (.dcpZpx d) := of_bytes (op := 0xD7#8) rfl rfl
theorem cld : Statement .cld := of_bytes (op := 0xD8#8) rfl rfl
theorem cmpAby (a : Addr) : Statement (.cmpAby a) := of_bytes (op := 0xD9#8) rfl rfl
theorem nopImpDA : Statement .nopImpDA := of_bytes (op := 0xDA#8) rfl rfl
theorem dcpAby (a : Addr) : Statement (.dcpAby a) := of_bytes (op := 0xDB#8) rfl rfl
theorem nopAbxDC (a : Addr) : Statement (.nopAbxDC a) := of_bytes (op := 0xDC#8) rfl rfl
theorem cmpAbx (a : Addr) : Statement (.cmpAbx a) := of_bytes (op := 0xDD#8) rfl rfl
theorem decAbx (a : Addr) : Statement (.decAbx a) := of_bytes (op := 0xDE#8) rfl rfl
theorem dcpAbx (a : Addr) : Statement (.dcpAbx a) := of_bytes (op := 0xDF#8) rfl rfl
theorem cpxImm (d : Byte) : Statement (.cpxImm d) := of_bytes (op := 0xE0#8) rfl rfl
theorem sbcIzx (d : Byte) : Statement (.sbcIzx d) := of_bytes (op := 0xE1#8) rfl rfl
theorem nopImmE2 (d : Byte) : Statement (.nopImmE2 d) := of_bytes (op := 0xE2#8) rfl rfl
theorem iscIzx (d : Byte) : Statement (.iscIzx d) := of_bytes (op := 0xE3#8) rfl rfl
theorem cpxZp (d : Byte) : Statement (.cpxZp d) := of_bytes (op := 0xE4#8) rfl rfl
theorem sbcZp (d : Byte) : Statement (.sbcZp d) := of_bytes (op := 0xE5#8) rfl rfl
theorem incZp (d : Byte) : Statement (.incZp d) := of_bytes (op := 0xE6#8) rfl rfl
theorem iscZp (d : Byte) : Statement (.iscZp d) := of_bytes (op := 0xE7#8) rfl rfl
theorem inx : Statement .inx := of_bytes (op := 0xE8#8) rfl rfl
theorem sbcImm (d : Byte) : Statement (.sbcImm d) := of_bytes (op := 0xE9#8) rfl rfl
theorem nop : Statement .nop := of_bytes (op := 0xEA#8) rfl rfl
theorem usbcImm (d : Byte) : Statement (.usbcImm d) := of_bytes (op := 0xEB#8) rfl rfl
theorem cpxAbs (a : Addr) : Statement (.cpxAbs a) := of_bytes (op := 0xEC#8) rfl rfl
theorem sbcAbs (a : Addr) : Statement (.sbcAbs a) := of_bytes (op := 0xED#8) rfl rfl
theorem incAbs (a : Addr) : Statement (.incAbs a) := of_bytes (op := 0xEE#8) rfl rfl
theorem iscAbs (a : Addr) : Statement (.iscAbs a) := of_bytes (op := 0xEF#8) rfl rfl
theorem beq (d : Byte) : Statement (.beq d) := of_bytes (op := 0xF0#8) rfl rfl
theorem sbcIzy (d : Byte) : Statement (.sbcIzy d) := of_bytes (op := 0xF1#8) rfl rfl
theorem jamF2 : Statement .jamF2 := of_bytes (op := 0xF2#8) rfl rfl
theorem iscIzy (d : Byte) : Statement (.iscIzy d) := of_bytes (op := 0xF3#8) rfl rfl
theorem nopZpxF4 (d : Byte) : Statement (.nopZpxF4 d) := of_bytes (op := 0xF4#8) rfl rfl
theorem sbcZpx (d : Byte) : Statement (.sbcZpx d) := of_bytes (op := 0xF5#8) rfl rfl
theorem incZpx (d : Byte) : Statement (.incZpx d) := of_bytes (op := 0xF6#8) rfl rfl
theorem iscZpx (d : Byte) : Statement (.iscZpx d) := of_bytes (op := 0xF7#8) rfl rfl
theorem sed : Statement .sed := of_bytes (op := 0xF8#8) rfl rfl
theorem sbcAby (a : Addr) : Statement (.sbcAby a) := of_bytes (op := 0xF9#8) rfl rfl
theorem nopImpFA : Statement .nopImpFA := of_bytes (op := 0xFA#8) rfl rfl
theorem iscAby (a : Addr) : Statement (.iscAby a) := of_bytes (op := 0xFB#8) rfl rfl
theorem nopAbxFC (a : Addr) : Statement (.nopAbxFC a) := of_bytes (op := 0xFC#8) rfl rfl
theorem sbcAbx (a : Addr) : Statement (.sbcAbx a) := of_bytes (op := 0xFD#8) rfl rfl
theorem incAbx (a : Addr) : Statement (.incAbx a) := of_bytes (op := 0xFE#8) rfl rfl
theorem iscAbx (a : Addr) : Statement (.iscAbx a) := of_bytes (op := 0xFF#8) rfl rfl

end Sys2Proof.Laws.Length
end

