-- ==== Sys2Proof/Laws/StepKeeps.lean ====
section
/-! SUPPORT. What every bus access, register update and sequencer update keeps, every step keeps: the induction over a
step, once, for rules about all instructions and all sequences. -/

namespace Sys2Proof.Machine

/-- A predicate that everything a step is made of keeps: bus reads, bus writes that do not halt the block, updates of
the registers and flags, of the sequencer and its records, and the clearing of the two latches. -/
structure Kept (P : State → Prop) : Prop where
  read : BusReadKeeps P
  write : BusWriteKeeps P
  regs : ∀ s A X Y S PC p, P s → P { s with A := A, X := X, Y := Y, S := S, PC := PC, P := p }
  seq : ∀ s ph b tr, P s → P { s with phase := ph, boundary := b, trace := tr }
  fresh : ∀ s, P s → P { s with traps := [] }
  nmi : ∀ s, P s → P { s with nmiPending := false }
  reset : ∀ s, P s → P { s with resetPending := false }

variable {P : State → Prop}

theorem Kept.sp (h : Kept P) (s : State) (sp : Byte) (hs : P s) : P { s with S := sp } := h.regs s _ _ _ sp _ _ hs

theorem Kept.pc (h : Kept P) (s : State) (pc : Addr) (hs : P s) : P { s with PC := pc } := h.regs s _ _ _ _ pc _ hs

theorem Kept.flags (h : Kept P) (s : State) (p : Flags) (hs : P s) : P { s with P := p } := h.regs s _ _ _ _ _ p hs

theorem Kept.arr (h : Kept P) : ReadKeeps P opArr := by
  intro m s hs
  unfold opArr
  split <;> exact h.regs s _ _ _ _ _ _ hs

/-- Every instruction's table keeps it. -/
theorem Kept.entry (h : Kept P) (i : Instr) : (instrEntry i).Keeps P := by
  have hr := h.read
  have hw := h.write
  have regs := h.regs
  cases i
  all_goals first
    | exact readProg_keeps hr _ _ fun _ s hs => regs s _ _ _ _ _ _ hs
    | exact rmwProg_keeps hr hw _ _ fun _ s hs => regs s _ _ _ _ _ _ hs
    | exact writeProg_keeps hr hw _ _ _
    | exact impliedProg_keeps hr _ fun s hs => regs s _ _ _ _ _ _ hs
    | exact branchProg_keeps hr h.pc _ _
    | exact ⟨goOn_keeps, cyclesKeep_cons (dummyPC_keeps hr goOn_keeps) cyclesKeep_nil⟩
    | exact ⟨goOn_keeps, returnCycles_keep hr h.sp h.flags h.pc⟩
    | exact ⟨goOn_keeps, returnSubCycles_keep hr h.sp h.pc⟩
    | exact ⟨goOn_keeps, callCycles_keep hr hw h.sp h.pc⟩
    | exact ⟨goOn_keeps, pushTable_keeps hr hw h.sp _⟩
    | exact ⟨goOn_keeps, pullTable_keeps hr h.sp fun _ s hs => regs s _ _ _ _ _ _ hs⟩
    | exact ⟨goOn_keeps, jumpIndirectCycles_keep hr h.pc⟩
    | exact ⟨fun _ s hs => h.pc s _ hs, cyclesKeep_nil⟩
    | exact ⟨goOn_keeps, cyclesKeep_cons (dummyPC_keeps hr fun _ s hs => h.pc s _ hs)
        (entryCycles_keep hr hw h.sp (fun s hs => h.flags s _ hs) h.pc _ _)⟩
    | exact readProg_keeps hr _ _ h.arr
    | trivial

/-- Every instruction keeps it. -/
theorem Kept.exec (h : Kept P) {i : Instr} {s t : State} (hs : P s) (ht : exec i s = .next t) : P t :=
  exec_keeps (h.entry i) (fun s ph b hs => h.seq s ph b _ hs) hs ht

/-- A fetch keeps it. -/
theorem Kept.fetchByte (h : Kept P) {s : State} (hs : P s) : P (fetchByte s).2 :=
  h.pc _ _ (h.read _ _ hs)

theorem Kept.fetchInstr (h : Kept P) {s : State} (hs : P s) : P (fetchInstr s).2 := by
  unfold Machine.fetchInstr
  dsimp only
  split
  · exact h.fetchByte hs
  · split <;> exact h.fetchByte (h.fetchByte hs)
  · exact h.fetchByte (h.fetchByte (h.fetchByte hs))

/-- Every cycle of an opcode's table keeps it. -/
theorem Kept.cycles (h : Kept P) {p : Prog} (hp : p.Keeps P) : CyclesKeep P p.cycles := by
  unfold Prog.cycles
  split
  · exact hp.2
  · exact cyclesKeep_cons (fun _ _ hs => hp.1 _ _ (h.fetchByte hs)) hp.2
  · exact cyclesKeep_cons (fun _ _ hs => h.fetchByte hs) (cyclesKeep_cons (fun _ _ hs => hp.1 _ _ (h.fetchByte hs)) hp.2)

theorem Kept.interruptCycles (h : Kept P) (vec : Addr) {first : State → State} (hf : FnKeeps P first) :
    CyclesKeep P (interruptCycles vec first) :=
  cyclesKeep_append
    (cyclesKeep_cons (dummyPC_keeps h.read fun _ s hs => hf s hs)
      (cyclesKeep_cons (dummyPC_keeps h.read goOn_keeps) cyclesKeep_nil))
    (entryCycles_keep h.read h.write h.sp (fun s hs => h.flags s _ hs) h.pc _ _)

theorem Kept.resetCycles (h : Kept P) : CyclesKeep P resetCycles := by
  have st : Cycle.Keeps P resetStackCycle := fun _ _ hs => rd_keeps h.read hs fun _ t ht => h.sp t _ ht
  exact cyclesKeep_append
    (cyclesKeep_cons (dummyPC_keeps h.read fun _ s hs => h.reset s hs)
      (cyclesKeep_cons (dummyPC_keeps h.read goOn_keeps)
        (cyclesKeep_cons st (cyclesKeep_cons st (cyclesKeep_cons st cyclesKeep_nil)))))
    (vectorCycles_keep h.read (fun s hs => h.flags s _ hs) h.pc _)

/-- Every opcode byte's table is that of some instruction, so it keeps it. -/
theorem opEntry_keeps (h : Kept P) (op : Byte) : (opEntry op).Keeps P := by
  obtain ⟨i, hi⟩ := exists_opByte op
  rw [← hi, opEntry_opByte]
  exact h.entry i

theorem Kept.rest (h : Kept P) (sq : Seq) : CyclesKeep P sq.rest := by
  unfold Seq.rest cyclesFrom
  split
  · refine cyclesKeep_drop ?_ _
    unfold opCycles
    rename_i b _
    have hk := opEntry_keeps h b
    cases he : opEntry b with
    | documented p => rw [he] at hk; exact h.cycles hk
    | annex p => rw [he] at hk; exact h.cycles hk
    | unstable => exact cyclesKeep_nil
  · exact cyclesKeep_drop (h.interruptCycles _ fun _ hs => hs) _
  · exact cyclesKeep_drop (h.interruptCycles _ fun s hs => h.nmi s hs) _
  · exact cyclesKeep_drop h.resetCycles _

theorem Kept.beginSequence (h : Kept P) {s : State} (hs : P s) : P s.beginSequence :=
  h.fresh _ (h.seq s _ _ [] hs)

theorem Kept.stuck (h : Kept P) {sq : Seq} {s t : State} (hs : P s) (ht : stuckCycle sq s = .next t) : P t := by
  cases ht
  exact h.seq _ _ _ _ (h.read _ _ (h.beginSequence hs))

theorem Kept.runRest (h : Kept P) {sq : Seq} {s t : State} (hs : P s) (ht : runRest sq s = .next t) : P t := by
  unfold Machine.runRest at ht
  split at ht
  · exact h.stuck hs ht
  · exact close_keeps (fun s ph b hs => h.seq s ph b _ hs) (runCycles_keeps (h.rest sq) _ _ (h.seq s _ _ _ hs)) ht

theorem Kept.runCycle (h : Kept P) {sq : Seq} {s t : State} (hs : P s) (ht : runCycle sq s = .next t) : P t := by
  unfold Machine.runCycle at ht
  split at ht
  · rename_i c cs hc
    refine close_keeps (fun s ph b hs => h.seq s ph b _ hs) ?_ ht
    exact h.rest sq c (by rw [hc]; exact List.mem_cons_self ..) _ _ (h.seq s _ _ _ hs)
  · exact h.stuck hs ht

/-- A step keeps it. -/
theorem Kept.step (h : Kept P) {s t : State} (hs : P s) (ht : step s = .next t) : P t := by
  unfold Machine.step at ht
  split at ht
  · cases ht; exact h.seq s _ _ _ hs
  · exact h.runRest hs (settle_next.mp ht).1
  · have ht := (settle_next.mp ht).1
    unfold stepAtBoundary at ht
    split at ht
    · exact h.runRest (h.beginSequence hs) ht
    · unfold runBytes at ht
      split at ht
      · exact h.exec (h.fetchInstr (h.beginSequence hs)) ht
      · cases ht

/-- The first cycle of a sequence keeps it. -/
theorem Kept.firstCycle (h : Kept P) {s t : State} (hs : P s) (ht : firstCycle s = .next t) : P t := by
  unfold Machine.firstCycle at ht
  split at ht
  · exact h.runCycle hs ht
  · unfold opcodeCycle at ht
    dsimp only at ht
    split at ht
    · cases ht
    · cases ht
      exact h.seq _ _ _ _ (h.fetchByte hs)

/-- A clock step keeps it. -/
theorem Kept.clockStep (h : Kept P) {s t : State} (hs : P s) (ht : clockStep s = .next t) : P t := by
  unfold Machine.clockStep at ht
  split at ht
  · cases ht; exact h.seq s _ _ _ hs
  · exact h.runCycle hs (settle_next.mp ht).1
  · exact h.firstCycle (h.beginSequence hs) (settle_next.mp ht).1

/-- What holds of every state is kept. -/
theorem anything_kept : Kept (fun _ => True) where
  read := fun _ _ _ => trivial
  write := fun _ _ _ _ _ _ => trivial
  regs := fun _ _ _ _ _ _ _ _ => trivial
  seq := fun _ _ _ _ _ => trivial
  fresh := fun _ _ => trivial
  nmi := fun _ _ => trivial
  reset := fun _ _ => trivial

/-! ## How a sequence halts the block -/

/-- The rest of a sequence halts the block by no decode failure (R361). -/
theorem runRest_fault {sq : Seq} {s : State} {f : Fault} (h : runRest sq s = .fault f) :
    f ≠ .trapWithoutObserver .decodeFailure := by
  unfold runRest at h
  split at h
  · cases h
  · exact close_fault (runCycles_keeps (anything_kept.rest sq) _ _ trivial) h

/-- One cycle of a sequence halts the block by no decode failure (R361). -/
theorem runCycle_fault {sq : Seq} {s : State} {f : Fault} (h : runCycle sq s = .fault f) :
    f ≠ .trapWithoutObserver .decodeFailure := by
  unfold runCycle at h
  split at h
  · rename_i c cs hc
    exact close_fault (anything_kept.rest sq c (by rw [hc]; exact List.mem_cons_self ..) _ _ trivial) h
  · cases h

/-! ## The events of a step -/

/-- That no event is a decode failure is kept by everything a step is made of (R361). -/
theorem noDecodeFailure_kept : Kept (fun s => ∀ e ∈ s.traps, e.reason ≠ .decodeFailure) where
  read := fun a s h => by
    rcases busRead_events a s with ht | ht <;> rw [ht]
    · exact h
    · exact List.forall_mem_append.mpr ⟨h, List.forall_mem_singleton.mpr nofun⟩
  write := fun _ _ _ _ hw h => by
    rcases busWrite_events hw with ht | ⟨_, ht⟩ <;> rw [ht]
    · exact h
    · exact List.forall_mem_append.mpr ⟨h, List.forall_mem_singleton.mpr nofun⟩
  regs := fun _ _ _ _ _ _ _ h => h
  seq := fun _ _ _ _ h => h
  fresh := fun _ _ => nofun
  nmi := fun _ h => h
  reset := fun _ h => h

/-! ## A halt under way -/

/-- A step leaves no halt under way, if there was none. -/
theorem step_halt {s t : State} (hs : s.halt = false) (ht : step s = .next t) : t.halt = false := by
  unfold step at ht
  split at ht
  · cases ht; exact hs
  · exact (settle_next.mp ht).2
  · exact (settle_next.mp ht).2

/-- A clock step leaves no halt under way, if there was none. -/
theorem clockStep_halt {s t : State} (hs : s.halt = false) (ht : clockStep s = .next t) : t.halt = false := by
  unfold clockStep at ht
  split at ht
  · cases ht; exact hs
  · exact (settle_next.mp ht).2
  · exact (settle_next.mp ht).2

/-- That no read can halt the block is kept by everything a step is made of (R362). -/
theorem quiet_kept : Kept (fun s => s.quiet = true) where
  read := fun a _ h => busRead_quiet a h
  write := fun _ _ _ _ ht h => busWrite_quiet ht h
  regs := fun _ _ _ _ _ _ _ h => h
  seq := fun _ _ _ _ h => h
  fresh := fun _ h => h
  nmi := fun _ h => h
  reset := fun _ h => h

end Sys2Proof.Machine
end

