-- ==== Sys2Proof/Tests/Slice0.lean ====
section
/-! SUPPORT. Tests of one step each, with the results that the spec's own vectors (95_test_vectors.md) and worked
examples give, and a witness for the hypotheses of every obligation that has any. -/

namespace Sys2Proof.Tests

open Sys2Proof.Machine Sys2Proof.Spec

/-- A machine at a boundary: `A`, `X`, `Y`, `S`, the status byte, `PC`, and the bytes of memory that matter. -/
def start (A X Y S p : Byte) (pc : Addr) (mem : Memory) : State :=
  { State.reset with A, X, Y, S, PC := pc, P := unpack p, mem }

/-- `A`, `X`, `Y`, `S`, `PC` and the status byte. -/
def registers (t : State) : List Nat :=
  [t.A.toNat, t.X.toNat, t.Y.toNat, t.S.toNat, t.PC.toNat, (pack true t.P).toNat]

/-- The addresses and bytes written. -/
def written (t : State) : List (Nat × Nat) :=
  t.trace.filterMap fun a =>
    match a with
    | .rd _ _ => none
    | .wr a v => some (a.toNat, v.toNat)

/-- The addresses accessed. -/
def accessed (t : State) : List Nat :=
  t.trace.map fun a =>
    match a with
    | .rd a _ => a.toNat
    | .wr a _ => a.toNat

/-- The next state, if there is one. -/
def after (o : Out) : Option State :=
  match o with
  | .next t => some t
  | .fault _ => none
  | .refused _ => none

/-- Of a step that reaches a boundary: the registers, the writes and the number of cycles. -/
def seen (o : Out) : Option (List Nat × List (Nat × Nat) × Nat) :=
  (after o).map fun t => (registers t, written t, t.trace.length)

/-- The instruction of a table word. -/
def decoded (w : Nat × Nat) : Option Instr := decodeTableWord w.1 w.2

/-! ## Well-formed encodings (R90, R91) -/

theorem test_wellFormed_refuses :
    [[], [0xA9#8], [0xA9#8, 0x01#8, 0x02#8], [0xAD#8, 0x01#8], [0xEA#8, 0x00#8]].map bytesWellFormed =
      [false, false, false, false, false] := by decide

theorem test_wellFormed_accepts :
    [[0xEA#8], [0xA9#8, 0x01#8], [0xAD#8, 0x01#8, 0x02#8]].map bytesWellFormed = [true, true, true] := by decide

/-! ## Decoding: every row of the opcode map (R96, R97), the operands written out with the low byte first (R68) -/

theorem test_decode_row_0 :
    [(8, 0x00), (16, 0x3401), (8, 0x02), (16, 0x3403), (16, 0x3404), (16, 0x3405), (16, 0x3406), (16, 0x3407),
      (8, 0x08), (16, 0x3409), (8, 0x0A), (16, 0x340B), (24, 0x12340C), (24, 0x12340D), (24, 0x12340E),
      (24, 0x12340F)].map decoded =
    [.brk, .oraIzx 0x34#8, .jam02, .sloIzx 0x34#8, .nopZp04 0x34#8, .oraZp 0x34#8, .aslZp 0x34#8, .sloZp 0x34#8,
      .php, .oraImm 0x34#8, .aslAcc, .ancImm0B 0x34#8, .nopAbs0C 0x1234#16, .oraAbs 0x1234#16, .aslAbs 0x1234#16,
      .sloAbs 0x1234#16].map some := by decide

theorem test_decode_row_1 :
    [(16, 0x3410), (16, 0x3411), (8, 0x12), (16, 0x3413), (16, 0x3414), (16, 0x3415), (16, 0x3416), (16, 0x3417),
      (8, 0x18), (24, 0x123419), (8, 0x1A), (24, 0x12341B), (24, 0x12341C), (24, 0x12341D), (24, 0x12341E),
      (24, 0x12341F)].map decoded =
    [.bpl 0x34#8, .oraIzy 0x34#8, .jam12, .sloIzy 0x34#8, .nopZpx14 0x34#8, .oraZpx 0x34#8, .aslZpx 0x34#8,
      .sloZpx 0x34#8, .clc, .oraAby 0x1234#16, .nopImp1A, .sloAby 0x1234#16, .nopAbx1C 0x1234#16, .oraAbx 0x1234#16,
      .aslAbx 0x1234#16, .sloAbx 0x1234#16].map some := by decide

theorem test_decode_row_2 :
    [(24, 0x123420), (16, 0x3421), (8, 0x22), (16, 0x3423), (16, 0x3424), (16, 0x3425), (16, 0x3426), (16, 0x3427),
      (8, 0x28), (16, 0x3429), (8, 0x2A), (16, 0x342B), (24, 0x12342C), (24, 0x12342D), (24, 0x12342E),
      (24, 0x12342F)].map decoded =
    [.jsr 0x1234#16, .andIzx 0x34#8, .jam22, .rlaIzx 0x34#8, .bitZp 0x34#8, .andZp 0x34#8, .rolZp 0x34#8,
      .rlaZp 0x34#8, .plp, .andImm 0x34#8, .rolAcc, .ancImm2B 0x34#8, .bitAbs 0x1234#16, .andAbs 0x1234#16,
      .rolAbs 0x1234#16, .rlaAbs 0x1234#16].map some := by decide

theorem test_decode_row_3 :
    [(16, 0x3430), (16, 0x3431), (8, 0x32), (16, 0x3433), (16, 0x3434), (16, 0x3435), (16, 0x3436), (16, 0x3437),
      (8, 0x38), (24, 0x123439), (8, 0x3A), (24, 0x12343B), (24, 0x12343C), (24, 0x12343D), (24, 0x12343E),
      (24, 0x12343F)].map decoded =
    [.bmi 0x34#8, .andIzy 0x34#8, .jam32, .rlaIzy 0x34#8, .nopZpx34 0x34#8, .andZpx 0x34#8, .rolZpx 0x34#8,
      .rlaZpx 0x34#8, .sec, .andAby 0x1234#16, .nopImp3A, .rlaAby 0x1234#16, .nopAbx3C 0x1234#16, .andAbx 0x1234#16,
      .rolAbx 0x1234#16, .rlaAbx 0x1234#16].map some := by decide

theorem test_decode_row_4 :
    [(8, 0x40), (16, 0x3441), (8, 0x42), (16, 0x3443), (16, 0x3444), (16, 0x3445), (16, 0x3446), (16, 0x3447),
      (8, 0x48), (16, 0x3449), (8, 0x4A), (16, 0x344B), (24, 0x12344C), (24, 0x12344D), (24, 0x12344E),
      (24, 0x12344F)].map decoded =
    [.rti, .eorIzx 0x34#8, .jam42, .sreIzx 0x34#8, .nopZp44 0x34#8, .eorZp 0x34#8, .lsrZp 0x34#8, .sreZp 0x34#8,
      .pha, .eorImm 0x34#8, .lsrAcc, .alrImm 0x34#8, .jmpAbs 0x1234#16, .eorAbs 0x1234#16, .lsrAbs 0x1234#16,
      .sreAbs 0x1234#16].map some := by decide

theorem test_decode_row_5 :
    [(16, 0x3450), (16, 0x3451), (8, 0x52), (16, 0x3453), (16, 0x3454), (16, 0x3455), (16, 0x3456), (16, 0x3457),
      (8, 0x58), (24, 0x123459), (8, 0x5A), (24, 0x12345B), (24, 0x12345C), (24, 0x12345D), (24, 0x12345E),
      (24, 0x12345F)].map decoded =
    [.bvc 0x34#8, .eorIzy 0x34#8, .jam52, .sreIzy 0x34#8, .nopZpx54 0x34#8, .eorZpx 0x34#8, .lsrZpx 0x34#8,
      .sreZpx 0x34#8, .cli, .eorAby 0x1234#16, .nopImp5A, .sreAby 0x1234#16, .nopAbx5C 0x1234#16, .eorAbx 0x1234#16,
      .lsrAbx 0x1234#16, .sreAbx 0x1234#16].map some := by decide

theorem test_decode_row_6 :
    [(8, 0x60), (16, 0x3461), (8, 0x62), (16, 0x3463), (16, 0x3464), (16, 0x3465), (16, 0x3466), (16, 0x3467),
      (8, 0x68), (16, 0x3469), (8, 0x6A), (16, 0x346B), (24, 0x12346C), (24, 0x12346D), (24, 0x12346E),
      (24, 0x12346F)].map decoded =
    [.rts, .adcIzx 0x34#8, .jam62, .rraIzx 0x34#8, .nopZp64 0x34#8, .adcZp 0x34#8, .rorZp 0x34#8, .rraZp 0x34#8,
      .pla, .adcImm 0x34#8, .rorAcc, .arrImm 0x34#8, .jmpInd 0x1234#16, .adcAbs 0x1234#16, .rorAbs 0x1234#16,
      .rraAbs 0x1234#16].map some := by decide

theorem test_decode_row_7 :
    [(16, 0x3470), (16, 0x3471), (8, 0x72), (16, 0x3473), (16, 0x3474), (16, 0x3475), (16, 0x3476), (16, 0x3477),
      (8, 0x78), (24, 0x123479), (8, 0x7A), (24, 0x12347B), (24, 0x12347C), (24, 0x12347D), (24, 0x12347E),
      (24, 0x12347F)].map decoded =
    [.bvs 0x34#8, .adcIzy 0x34#8, .jam72, .rraIzy 0x34#8, .nopZpx74 0x34#8, .adcZpx 0x34#8, .rorZpx 0x34#8,
      .rraZpx 0x34#8, .sei, .adcAby 0x1234#16, .nopImp7A, .rraAby 0x1234#16, .nopAbx7C 0x1234#16, .adcAbx 0x1234#16,
      .rorAbx 0x1234#16, .rraAbx 0x1234#16].map some := by decide

theorem test_decode_row_8 :
    [(16, 0x3480), (16, 0x3481), (16, 0x3482), (16, 0x3483), (16, 0x3484), (16, 0x3485), (16, 0x3486),
      (16, 0x3487), (8, 0x88), (16, 0x3489), (8, 0x8A), (16, 0x348B), (24, 0x12348C), (24, 0x12348D),
      (24, 0x12348E), (24, 0x12348F)].map decoded =
    [.nopImm80 0x34#8, .staIzx 0x34#8, .nopImm82 0x34#8, .saxIzx 0x34#8, .styZp 0x34#8, .staZp 0x34#8,
      .stxZp 0x34#8, .saxZp 0x34#8, .dey, .nopImm89 0x34#8, .txa, .aneImm 0x34#8, .styAbs 0x1234#16,
      .staAbs 0x1234#16, .stxAbs 0x1234#16, .saxAbs 0x1234#16].map some := by decide

theorem test_decode_row_9 :
    [(16, 0x3490), (16, 0x3491), (8, 0x92), (16, 0x3493), (16, 0x3494), (16, 0x3495), (16, 0x3496), (16, 0x3497),
      (8, 0x98), (24, 0x123499), (8, 0x9A), (24, 0x12349B), (24, 0x12349C), (24, 0x12349D), (24, 0x12349E),
      (24, 0x12349F)].map decoded =
    [.bcc 0x34#8, .staIzy 0x34#8, .jam92, .shaIzy 0x34#8, .styZpx 0x34#8, .staZpx 0x34#8, .stxZpy 0x34#8,
      .saxZpy 0x34#8, .tya, .staAby 0x1234#16, .txs, .tasAby 0x1234#16, .shyAbx 0x1234#16, .staAbx 0x1234#16,
      .shxAby 0x1234#16, .shaAby 0x1234#16].map some := by decide

theorem test_decode_row_A :
    [(16, 0x34A0), (16, 0x34A1), (16, 0x34A2), (16, 0x34A3), (16, 0x34A4), (16, 0x34A5), (16, 0x34A6),
      (16, 0x34A7), (8, 0xA8), (16, 0x34A9), (8, 0xAA), (16, 0x34AB), (24, 0x1234AC), (24, 0x1234AD),
      (24, 0x1234AE), (24, 0x1234AF)].map decoded =
    [.ldyImm 0x34#8, .ldaIzx 0x34#8, .ldxImm 0x34#8, .laxIzx 0x34#8, .ldyZp 0x34#8, .ldaZp 0x34#8, .ldxZp 0x34#8,
      .laxZp 0x34#8, .tay, .ldaImm 0x34#8, .tax, .lxaImm 0x34#8, .ldyAbs 0x1234#16, .ldaAbs 0x1234#16,
      .ldxAbs 0x1234#16, .laxAbs 0x1234#16].map some := by decide

theorem test_decode_row_B :
    [(16, 0x34B0), (16, 0x34B1), (8, 0xB2), (16, 0x34B3), (16, 0x34B4), (16, 0x34B5), (16, 0x34B6), (16, 0x34B7),
      (8, 0xB8), (24, 0x1234B9), (8, 0xBA), (24, 0x1234BB), (24, 0x1234BC), (24, 0x1234BD), (24, 0x1234BE),
      (24, 0x1234BF)].map decoded =
    [.bcs 0x34#8, .ldaIzy 0x34#8, .jamB2, .laxIzy 0x34#8, .ldyZpx 0x34#8, .ldaZpx 0x34#8, .ldxZpy 0x34#8,
      .laxZpy 0x34#8, .clv, .ldaAby 0x1234#16, .tsx, .lasAby 0x1234#16, .ldyAbx 0x1234#16, .ldaAbx 0x1234#16,
      .ldxAby 0x1234#16, .laxAby 0x1234#16].map some := by decide

theorem test_decode_row_C :
    [(16, 0x34C0), (16, 0x34C1), (16, 0x34C2), (16, 0x34C3), (16, 0x34C4), (16, 0x34C5), (16, 0x34C6),
      (16, 0x34C7), (8, 0xC8), (16, 0x34C9), (8, 0xCA), (16, 0x34CB), (24, 0x1234CC), (24, 0x1234CD),
      (24, 0x1234CE), (24, 0x1234CF)].map decoded =
    [.cpyImm 0x34#8, .cmpIzx 0x34#8, .nopImmC2 0x34#8, .dcpIzx 0x34#8, .cpyZp 0x34#8, .cmpZp 0x34#8, .decZp 0x34#8,
      .dcpZp 0x34#8, .iny, .cmpImm 0x34#8, .dex, .sbxImm 0x34#8, .cpyAbs 0x1234#16, .cmpAbs 0x1234#16,
      .decAbs 0x1234#16, .dcpAbs 0x1234#16].map some := by decide

theorem test_decode_row_D :
    [(16, 0x34D0), (16, 0x34D1), (8, 0xD2), (16, 0x34D3), (16, 0x34D4), (16, 0x34D5), (16, 0x34D6), (16, 0x34D7),
      (8, 0xD8), (24, 0x1234D9), (8, 0xDA), (24, 0x1234DB), (24, 0x1234DC), (24, 0x1234DD), (24, 0x1234DE),
      (24, 0x1234DF)].map decoded =
    [.bne 0x34#8, .cmpIzy 0x34#8, .jamD2, .dcpIzy 0x34#8, .nopZpxD4 0x34#8, .cmpZpx 0x34#8, .decZpx 0x34#8,
      .dcpZpx 0x34#8, .cld, .cmpAby 0x1234#16, .nopImpDA, .dcpAby 0x1234#16, .nopAbxDC 0x1234#16, .cmpAbx 0x1234#16,
      .decAbx 0x1234#16, .dcpAbx 0x1234#16].map some := by decide

theorem test_decode_row_E :
    [(16, 0x34E0), (16, 0x34E1), (16, 0x34E2), (16, 0x34E3), (16, 0x34E4), (16, 0x34E5), (16, 0x34E6),
      (16, 0x34E7), (8, 0xE8), (16, 0x34E9), (8, 0xEA), (16, 0x34EB), (24, 0x1234EC), (24, 0x1234ED),
      (24, 0x1234EE), (24, 0x1234EF)].map decoded =
    [.cpxImm 0x34#8, .sbcIzx 0x34#8, .nopImmE2 0x34#8, .iscIzx 0x34#8, .cpxZp 0x34#8, .sbcZp 0x34#8, .incZp 0x34#8,
      .iscZp 0x34#8, .inx, .sbcImm 0x34#8, .nop, .usbcImm 0x34#8, .cpxAbs 0x1234#16, .sbcAbs 0x1234#16,
      .incAbs 0x1234#16, .iscAbs 0x1234#16].map some := by decide

theorem test_decode_row_F :
    [(16, 0x34F0), (16, 0x34F1), (8, 0xF2), (16, 0x34F3), (16, 0x34F4), (16, 0x34F5), (16, 0x34F6), (16, 0x34F7),
      (8, 0xF8), (24, 0x1234F9), (8, 0xFA), (24, 0x1234FB), (24, 0x1234FC), (24, 0x1234FD), (24, 0x1234FE),
      (24, 0x1234FF)].map decoded =
    [.beq 0x34#8, .sbcIzy 0x34#8, .jamF2, .iscIzy 0x34#8, .nopZpxF4 0x34#8, .sbcZpx 0x34#8, .incZpx 0x34#8,
      .iscZpx 0x34#8, .sed, .sbcAby 0x1234#16, .nopImpFA, .iscAby 0x1234#16, .nopAbxFC 0x1234#16, .sbcAbx 0x1234#16,
      .incAbx 0x1234#16, .iscAbx 0x1234#16].map some := by decide

/-! ## Instructions, from the vectors of the spec -/

/-- spec/95_test_vectors.md L4. -/
theorem test_L4_ldaZpx :
    seen (step (start 0x00 0x20 0x00 0xFF 0x30 0x0200
    [(0x0010, 0x42#8), (0x00F0, 0x99#8), (0x0200, 0xB5#8), (0x0201, 0xF0#8)])) =
      some ([0x42, 0x20, 0x00, 0xFF, 0x0202, 0x30], [], 4) := by decide

/-- spec/95_test_vectors.md L7. -/
theorem test_L7_ldaAbx :
    seen (step (start 0x00 0x20 0x00 0xFF 0x30 0x0200
    [(0x0200, 0xBD#8), (0x0201, 0xF0#8), (0x0202, 0x12#8), (0x1310, 0x11#8)])) =
      some ([0x11, 0x20, 0x00, 0xFF, 0x0203, 0x30], [], 5) := by decide

/-- spec/95_test_vectors.md L12. -/
theorem test_L12_ldxZpy :
    seen (step (start 0x00 0x00 0x90 0xFF 0x30 0x0200
    [(0x0010, 0x0A#8), (0x0200, 0xB6#8), (0x0201, 0x80#8)])) =
      some ([0x00, 0x0A, 0x90, 0xFF, 0x0202, 0x30], [], 4) := by decide

/-- spec/95_test_vectors.md L13. -/
theorem test_L13_ldyAbx :
    seen (step (start 0x00 0x01 0x00 0xFF 0x30 0x0200
    [(0x0200, 0xBC#8), (0x0201, 0x00#8), (0x0202, 0x20#8), (0x2001, 0x80#8)])) =
      some ([0x00, 0x01, 0x80, 0xFF, 0x0203, 0xB0], [], 4) := by decide

/-- spec/95_test_vectors.md L15. -/
theorem test_L15_staAbx :
    seen (step (start 0x01 0x20 0x00 0xFF 0x30 0x0200
    [(0x0200, 0x9D#8), (0x0201, 0xF0#8), (0x0202, 0x12#8)])) =
      some ([0x01, 0x20, 0x00, 0xFF, 0x0203, 0x30], [(0x1310, 0x01)], 5) := by decide

/-- spec/95_test_vectors.md L18. -/
theorem test_L18_staIzx :
    seen (step (start 0x03 0x04 0x00 0xFF 0x30 0x0200
    [(0x0014, 0x00#8), (0x0015, 0x40#8), (0x0200, 0x81#8), (0x0201, 0x10#8)])) =
      some ([0x03, 0x04, 0x00, 0xFF, 0x0202, 0x30], [(0x4000, 0x03)], 6) := by decide

/-- spec/95_test_vectors.md L19. -/
theorem test_L19_stxZpy :
    seen (step (start 0x00 0x09 0x02 0xFF 0x30 0x0200
    [(0x0200, 0x96#8), (0x0201, 0xFF#8)])) =
      some ([0x00, 0x09, 0x02, 0xFF, 0x0202, 0x30], [(0x0001, 0x09)], 4) := by decide

/-- spec/95_test_vectors.md L20. -/
theorem test_L20_styAbs :
    seen (step (start 0x00 0x00 0x0C 0xFF 0x30 0x0200
    [(0x0200, 0x8C#8), (0x0201, 0x00#8), (0x0202, 0x30#8)])) =
      some ([0x00, 0x00, 0x0C, 0xFF, 0x0203, 0x30], [(0x3000, 0x0C)], 4) := by decide

/-- spec/95_test_vectors.md L21. -/
theorem test_L21_tax :
    seen (step (start 0x00 0x11 0x00 0xFF 0x30 0x0200
    [(0x0200, 0xAA#8)])) =
      some ([0x00, 0x00, 0x00, 0xFF, 0x0201, 0x32], [], 2) := by decide

/-- spec/95_test_vectors.md L22. -/
theorem test_L22_tay :
    seen (step (start 0x80 0x00 0x00 0xFF 0x30 0x0200
    [(0x0200, 0xA8#8)])) =
      some ([0x80, 0x00, 0x80, 0xFF, 0x0201, 0xB0], [], 2) := by decide

/-- spec/95_test_vectors.md L23. -/
theorem test_L23_txa :
    seen (step (start 0xFF 0x7F 0x00 0xFF 0xB0 0x0200
    [(0x0200, 0x8A#8)])) =
      some ([0x7F, 0x7F, 0x00, 0xFF, 0x0201, 0x30], [], 2) := by decide

/-- spec/95_test_vectors.md L24. -/
theorem test_L24_tya :
    seen (step (start 0x01 0x00 0x00 0xFF 0x30 0x0200
    [(0x0200, 0x98#8)])) =
      some ([0x00, 0x00, 0x00, 0xFF, 0x0201, 0x32], [], 2) := by decide

/-- spec/95_test_vectors.md L25. -/
theorem test_L25_tsx :
    seen (step (start 0x00 0x00 0x00 0xFD 0x30 0x0200
    [(0x0200, 0xBA#8)])) =
      some ([0x00, 0xFD, 0x00, 0xFD, 0x0201, 0xB0], [], 2) := by decide

/-- spec/95_test_vectors.md L26. -/
theorem test_L26_txs :
    seen (step (start 0x00 0x00 0x00 0xFF 0xB0 0x0200
    [(0x0200, 0x9A#8)])) =
      some ([0x00, 0x00, 0x00, 0x00, 0x0201, 0xB0], [], 2) := by decide

/-- spec/95_test_vectors.md A6. -/
theorem test_A6_adcImm :
    seen (step (start 0x58 0x00 0x00 0xFF 0x39 0x0200
    [(0x0200, 0x69#8), (0x0201, 0x46#8)])) =
      some ([0x05, 0x00, 0x00, 0xFF, 0x0202, 0xF9], [], 2) := by decide

/-- spec/95_test_vectors.md A10. -/
theorem test_A10_adcImm :
    seen (step (start 0x80 0x00 0x00 0xFF 0x38 0x0200
    [(0x0200, 0x69#8), (0x0201, 0x80#8)])) =
      some ([0x60, 0x00, 0x00, 0xFF, 0x0202, 0x7B], [], 2) := by decide

/-- spec/95_test_vectors.md A14. -/
theorem test_A14_sbcImm :
    seen (step (start 0x7F 0x00 0x00 0xFF 0x31 0x0200
    [(0x0200, 0xE9#8), (0x0201, 0xFF#8)])) =
      some ([0x80, 0x00, 0x00, 0xFF, 0x0202, 0xF0], [], 2) := by decide

/-- spec/95_test_vectors.md A17. -/
theorem test_A17_sbcImm :
    seen (step (start 0x12 0x00 0x00 0xFF 0x39 0x0200
    [(0x0200, 0xE9#8), (0x0201, 0x21#8)])) =
      some ([0x91, 0x00, 0x00, 0xFF, 0x0202, 0xB8], [], 2) := by decide

/-- spec/95_test_vectors.md A20. -/
theorem test_A20_andZp :
    seen (step (start 0xF0 0x00 0x00 0xFF 0x30 0x0200
    [(0x0010, 0x3C#8), (0x0200, 0x25#8), (0x0201, 0x10#8)])) =
      some ([0x30, 0x00, 0x00, 0xFF, 0x0202, 0x30], [], 3) := by decide

/-- spec/95_test_vectors.md A22. -/
theorem test_A22_oraImm :
    seen (step (start 0x01 0x00 0x00 0xFF 0x30 0x0200
    [(0x0200, 0x09#8), (0x0201, 0x80#8)])) =
      some ([0x81, 0x00, 0x00, 0xFF, 0x0202, 0xB0], [], 2) := by decide

/-- spec/95_test_vectors.md A25. -/
theorem test_A25_eorImm :
    seen (step (start 0x55 0x00 0x00 0xFF 0x30 0x0200
    [(0x0200, 0x49#8), (0x0201, 0xAA#8)])) =
      some ([0xFF, 0x00, 0x00, 0xFF, 0x0202, 0xB0], [], 2) := by decide

/-- spec/95_test_vectors.md A26. -/
theorem test_A26_bitZp :
    seen (step (start 0x01 0x00 0x00 0xFF 0x30 0x0200
    [(0x0010, 0xC0#8), (0x0200, 0x24#8), (0x0201, 0x10#8)])) =
      some ([0x01, 0x00, 0x00, 0xFF, 0x0202, 0xF2], [], 3) := by decide

/-- spec/95_test_vectors.md A29. -/
theorem test_A29_cmpImm :
    seen (step (start 0x40 0x00 0x00 0xFF 0x30 0x0200
    [(0x0200, 0xC9#8), (0x0201, 0x41#8)])) =
      some ([0x40, 0x00, 0x00, 0xFF, 0x0202, 0xB0], [], 2) := by decide

/-- spec/95_test_vectors.md A30. -/
theorem test_A30_cmpImm :
    seen (step (start 0x80 0x00 0x00 0xFF 0x70 0x0200
    [(0x0200, 0xC9#8), (0x0201, 0x01#8)])) =
      some ([0x80, 0x00, 0x00, 0xFF, 0x0202, 0x71], [], 2) := by decide

/-- spec/95_test_vectors.md A32. -/
theorem test_A32_cpxZp :
    seen (step (start 0x00 0x10 0x00 0xFF 0x30 0x0200
    [(0x0010, 0x0F#8), (0x0200, 0xE4#8), (0x0201, 0x10#8)])) =
      some ([0x00, 0x10, 0x00, 0xFF, 0x0202, 0x31], [], 3) := by decide

/-- spec/95_test_vectors.md A33. -/
theorem test_A33_cpyImm :
    seen (step (start 0x00 0x00 0x7F 0xFF 0x30 0x0200
    [(0x0200, 0xC0#8), (0x0201, 0x80#8)])) =
      some ([0x00, 0x00, 0x7F, 0xFF, 0x0202, 0xB0], [], 2) := by decide

/-- spec/95_test_vectors.md A34. -/
theorem test_A34_incZp :
    seen (step (start 0x00 0x00 0x00 0xFF 0x30 0x0200
    [(0x0010, 0xFF#8), (0x0200, 0xE6#8), (0x0201, 0x10#8)])) =
      some ([0x00, 0x00, 0x00, 0xFF, 0x0202, 0x32], [(0x0010, 0xFF), (0x0010, 0x00)], 5) := by decide

/-- spec/95_test_vectors.md A37. -/
theorem test_A37_decZpx :
    seen (step (start 0x00 0x01 0x00 0xFF 0x30 0x0200
    [(0x0000, 0x01#8), (0x0200, 0xD6#8), (0x0201, 0xFF#8)])) =
      some ([0x00, 0x01, 0x00, 0xFF, 0x0202, 0x32], [(0x0000, 0x01), (0x0000, 0x00)], 6) := by decide

/-- spec/95_test_vectors.md A38. -/
theorem test_A38_inx :
    seen (step (start 0x00 0xFF 0x00 0xFF 0x30 0x0200
    [(0x0200, 0xE8#8)])) =
      some ([0x00, 0x00, 0x00, 0xFF, 0x0201, 0x32], [], 2) := by decide

/-- spec/95_test_vectors.md A39. -/
theorem test_A39_iny :
    seen (step (start 0x00 0x00 0x7F 0xFF 0x30 0x0200
    [(0x0200, 0xC8#8)])) =
      some ([0x00, 0x00, 0x80, 0xFF, 0x0201, 0xB0], [], 2) := by decide

/-- spec/95_test_vectors.md A40. -/
theorem test_A40_dex :
    seen (step (start 0x00 0x00 0x00 0xFF 0x30 0x0200
    [(0x0200, 0xCA#8)])) =
      some ([0x00, 0xFF, 0x00, 0xFF, 0x0201, 0xB0], [], 2) := by decide

/-- spec/95_test_vectors.md A41. -/
theorem test_A41_dey :
    seen (step (start 0x00 0x00 0x01 0xFF 0x30 0x0200
    [(0x0200, 0x88#8)])) =
      some ([0x00, 0x00, 0x00, 0xFF, 0x0201, 0x32], [], 2) := by decide

/-- spec/95_test_vectors.md A42. -/
theorem test_A42_aslAcc :
    seen (step (start 0x80 0x00 0x00 0xFF 0x30 0x0200
    [(0x0200, 0x0A#8)])) =
      some ([0x00, 0x00, 0x00, 0xFF, 0x0201, 0x33], [], 2) := by decide

/-- spec/95_test_vectors.md A44. -/
theorem test_A44_aslZp :
    seen (step (start 0x00 0x00 0x00 0xFF 0x30 0x0200
    [(0x0010, 0xC0#8), (0x0200, 0x06#8), (0x0201, 0x10#8)])) =
      some ([0x00, 0x00, 0x00, 0xFF, 0x0202, 0xB1], [(0x0010, 0xC0), (0x0010, 0x80)], 5) := by decide

/-- spec/95_test_vectors.md A45. -/
theorem test_A45_lsrAcc :
    seen (step (start 0x01 0x00 0x00 0xFF 0xB0 0x0200
    [(0x0200, 0x4A#8)])) =
      some ([0x00, 0x00, 0x00, 0xFF, 0x0201, 0x33], [], 2) := by decide

/-- spec/95_test_vectors.md A46. -/
theorem test_A46_lsrAbs :
    seen (step (start 0x00 0x00 0x00 0xFF 0x31 0x0200
    [(0x0200, 0x4E#8), (0x0201, 0x00#8), (0x0202, 0x30#8), (0x3000, 0x82#8)])) =
      some ([0x00, 0x00, 0x00, 0xFF, 0x0203, 0x30], [(0x3000, 0x82), (0x3000, 0x41)], 6) := by decide

/-- spec/95_test_vectors.md A47. -/
theorem test_A47_rolAcc :
    seen (step (start 0x80 0x00 0x00 0xFF 0x31 0x0200
    [(0x0200, 0x2A#8)])) =
      some ([0x01, 0x00, 0x00, 0xFF, 0x0201, 0x31], [], 2) := by decide

/-- spec/95_test_vectors.md A48. -/
theorem test_A48_rolZp :
    seen (step (start 0x00 0x00 0x00 0xFF 0x30 0x0200
    [(0x0010, 0x40#8), (0x0200, 0x26#8), (0x0201, 0x10#8)])) =
      some ([0x00, 0x00, 0x00, 0xFF, 0x0202, 0xB0], [(0x0010, 0x40), (0x0010, 0x80)], 5) := by decide

/-- spec/95_test_vectors.md A49. -/
theorem test_A49_rorAcc :
    seen (step (start 0x01 0x00 0x00 0xFF 0x31 0x0200
    [(0x0200, 0x6A#8)])) =
      some ([0x80, 0x00, 0x00, 0xFF, 0x0201, 0xB1], [], 2) := by decide

/-- spec/95_test_vectors.md A50. -/
theorem test_A50_rorZpx :
    seen (step (start 0x00 0x01 0x00 0xFF 0x30 0x0200
    [(0x0011, 0x00#8), (0x0200, 0x76#8), (0x0201, 0x10#8)])) =
      some ([0x00, 0x01, 0x00, 0xFF, 0x0202, 0x32], [(0x0011, 0x00), (0x0011, 0x00)], 6) := by decide

/-- spec/95_test_vectors.md B2. -/
theorem test_B2_bne :
    seen (step (start 0x00 0x00 0x00 0xFF 0x30 0x0200
    [(0x0200, 0xD0#8), (0x0201, 0x05#8)])) =
      some ([0x00, 0x00, 0x00, 0xFF, 0x0207, 0x30], [], 3) := by decide

/-- spec/95_test_vectors.md B3. -/
theorem test_B3_beq :
    seen (step (start 0x00 0x00 0x00 0xFF 0x32 0x0200
    [(0x0200, 0xF0#8), (0x0201, 0xFC#8)])) =
      some ([0x00, 0x00, 0x00, 0xFF, 0x01FE, 0x32], [], 4) := by decide

/-- spec/95_test_vectors.md B4. -/
theorem test_B4_bcc :
    seen (step (start 0x00 0x00 0x00 0xFF 0x30 0x02F0
    [(0x02F0, 0x90#8), (0x02F1, 0x20#8)])) =
      some ([0x00, 0x00, 0x00, 0xFF, 0x0312, 0x30], [], 4) := by decide

/-- spec/95_test_vectors.md B5. -/
theorem test_B5_bcs :
    seen (step (start 0x00 0x00 0x00 0xFF 0x31 0x0200
    [(0x0200, 0xB0#8), (0x0201, 0xFE#8)])) =
      some ([0x00, 0x00, 0x00, 0xFF, 0x0200, 0x31], [], 3) := by decide

/-- spec/95_test_vectors.md B6. -/
theorem test_B6_bpl :
    seen (step (start 0x00 0x00 0x00 0xFF 0x30 0x0200
    [(0x0200, 0x10#8), (0x0201, 0x00#8)])) =
      some ([0x00, 0x00, 0x00, 0xFF, 0x0202, 0x30], [], 3) := by decide

/-- spec/95_test_vectors.md B7. -/
theorem test_B7_bmi :
    seen (step (start 0x00 0x00 0x00 0xFF 0xB0 0x10FE
    [(0x10FE, 0x30#8), (0x10FF, 0xF0#8)])) =
      some ([0x00, 0x00, 0x00, 0xFF, 0x10F0, 0xB0], [], 4) := by decide

/-- spec/95_test_vectors.md B8. -/
theorem test_B8_bvc :
    seen (step (start 0x00 0x00 0x00 0xFF 0x30 0x000E
    [(0x000E, 0x50#8), (0x000F, 0x80#8)])) =
      some ([0x00, 0x00, 0x00, 0xFF, 0xFF90, 0x30], [], 4) := by decide

/-- spec/95_test_vectors.md B9. -/
theorem test_B9_bvs :
    seen (step (start 0x00 0x00 0x00 0xFF 0x30 0x0300
    [(0x0300, 0x70#8), (0x0301, 0x10#8)])) =
      some ([0x00, 0x00, 0x00, 0xFF, 0x0302, 0x30], [], 2) := by decide

/-- spec/95_test_vectors.md B10. -/
theorem test_B10_jmpAbs :
    seen (step (start 0x00 0x00 0x00 0xFF 0x30 0x0200
    [(0x0200, 0x4C#8), (0x0201, 0x34#8), (0x0202, 0x12#8)])) =
      some ([0x00, 0x00, 0x00, 0xFF, 0x1234, 0x30], [], 3) := by decide

/-- spec/95_test_vectors.md B12. -/
theorem test_B12_jmpInd :
    seen (step (start 0x00 0x00 0x00 0xFF 0x30 0x0400
    [(0x0200, 0x12#8), (0x02FF, 0x34#8), (0x0300, 0x56#8), (0x0400, 0x6C#8), (0x0401, 0xFF#8), (0x0402, 0x02#8)])) =
      some ([0x00, 0x00, 0x00, 0xFF, 0x1234, 0x30], [], 5) := by decide

/-- spec/95_test_vectors.md B14. -/
theorem test_B14_rts :
    seen (step (start 0x00 0x00 0x00 0xFD 0x30 0x1234
    [(0x01FE, 0x02#8), (0x01FF, 0x03#8), (0x1234, 0x60#8)])) =
      some ([0x00, 0x00, 0x00, 0xFF, 0x0303, 0x30], [], 6) := by decide

/-- spec/95_test_vectors.md B15. -/
theorem test_B15_jsr :
    seen (step (start 0x00 0x00 0x00 0x00 0x30 0x0300
    [(0x0300, 0x20#8), (0x0301, 0x00#8), (0x0302, 0x40#8)])) =
      some ([0x00, 0x00, 0x00, 0xFE, 0x4000, 0x30], [(0x0100, 0x03), (0x01FF, 0x02)], 6) := by decide

/-- spec/95_test_vectors.md K2. -/
theorem test_K2_pha :
    seen (step (start 0x42 0x00 0x00 0x00 0x30 0x0200
    [(0x0200, 0x48#8)])) =
      some ([0x42, 0x00, 0x00, 0xFF, 0x0201, 0x30], [(0x0100, 0x42)], 3) := by decide

/-- spec/95_test_vectors.md K3. -/
theorem test_K3_php :
    seen (step (start 0x00 0x00 0x00 0xFF 0xB1 0x0200
    [(0x0200, 0x08#8)])) =
      some ([0x00, 0x00, 0x00, 0xFE, 0x0201, 0xB1], [(0x01FF, 0xB1)], 3) := by decide

/-- spec/95_test_vectors.md K6. -/
theorem test_K6_pla :
    seen (step (start 0x00 0x00 0x00 0xFF 0x30 0x0200
    [(0x0100, 0x80#8), (0x0200, 0x68#8)])) =
      some ([0x80, 0x00, 0x00, 0x00, 0x0201, 0xB0], [], 4) := by decide

/-- spec/95_test_vectors.md K9. -/
theorem test_K9_plp :
    seen (step (start 0x00 0x00 0x00 0xFE 0x30 0x0200
    [(0x01FF, 0x30#8), (0x0200, 0x28#8)])) =
      some ([0x00, 0x00, 0x00, 0xFF, 0x0201, 0x30], [], 4) := by decide

/-- spec/95_test_vectors.md K10. -/
theorem test_K10_clc :
    seen (step (start 0x00 0x00 0x00 0xFF 0x31 0x0200
    [(0x0200, 0x18#8)])) =
      some ([0x00, 0x00, 0x00, 0xFF, 0x0201, 0x30], [], 2) := by decide

/-- spec/95_test_vectors.md K11. -/
theorem test_K11_sec :
    seen (step (start 0x00 0x00 0x00 0xFF 0x30 0x0200
    [(0x0200, 0x38#8)])) =
      some ([0x00, 0x00, 0x00, 0xFF, 0x0201, 0x31], [], 2) := by decide

/-- spec/95_test_vectors.md K12. -/
theorem test_K12_cli :
    seen (step (start 0x00 0x00 0x00 0xFF 0x34 0x0200
    [(0x0200, 0x58#8)])) =
      some ([0x00, 0x00, 0x00, 0xFF, 0x0201, 0x30], [], 2) := by decide

/-- spec/95_test_vectors.md K13. -/
theorem test_K13_sei :
    seen (step (start 0x00 0x00 0x00 0xFF 0x30 0x0200
    [(0x0200, 0x78#8)])) =
      some ([0x00, 0x00, 0x00, 0xFF, 0x0201, 0x34], [], 2) := by decide

/-- spec/95_test_vectors.md K14. -/
theorem test_K14_clv :
    seen (step (start 0x00 0x00 0x00 0xFF 0x70 0x0200
    [(0x0200, 0xB8#8)])) =
      some ([0x00, 0x00, 0x00, 0xFF, 0x0201, 0x30], [], 2) := by decide

/-- spec/95_test_vectors.md K15. -/
theorem test_K15_cld :
    seen (step (start 0x00 0x00 0x00 0xFF 0x38 0x0200
    [(0x0200, 0xD8#8)])) =
      some ([0x00, 0x00, 0x00, 0xFF, 0x0201, 0x30], [], 2) := by decide

/-- spec/95_test_vectors.md K16. -/
theorem test_K16_sed :
    seen (step (start 0x00 0x00 0x00 0xFF 0x30 0x0200
    [(0x0200, 0xF8#8)])) =
      some ([0x00, 0x00, 0x00, 0xFF, 0x0201, 0x38], [], 2) := by decide

/-- spec/95_test_vectors.md K17. -/
theorem test_K17_nop :
    seen (step (start 0x00 0x00 0x00 0xFF 0xB3 0x0200
    [(0x0200, 0xEA#8)])) =
      some ([0x00, 0x00, 0x00, 0xFF, 0x0201, 0xB3], [], 2) := by decide

/-- spec/95_test_vectors.md K19. -/
theorem test_K19_brk :
    seen (step (start 0x00 0x00 0x00 0x01 0xB9 0x04FF
    [(0x04FF, 0x00#8), (0x0500, 0xEA#8), (0xFFFE, 0x00#8), (0xFFFF, 0x80#8)])) =
      some ([0x00, 0x00, 0x00, 0xFE, 0x8000, 0xBD], [(0x0101, 0x05), (0x0100, 0x01), (0x01FF, 0xB9)], 7) := by decide

/-- spec/95_test_vectors.md K21. -/
theorem test_K21_rti :
    seen (step (start 0x00 0x00 0x00 0xFC 0x34 0x8000
    [(0x01FD, 0xC3#8), (0x01FE, 0x00#8), (0x01FF, 0x10#8), (0x8000, 0x40#8)])) =
      some ([0x00, 0x00, 0x00, 0xFF, 0x1000, 0xF3], [], 6) := by decide

/-- spec/45_undocumented.md R271's example. -/
theorem test_R271_nopAbs0C :
    seen (step (start 0x00 0x00 0x00 0xFF 0x30 0x0200
    [(0x0200, 0x0C#8), (0x0201, 0x00#8), (0x0202, 0x03#8), (0x0300, 0x55#8)])) =
      some ([0x00, 0x00, 0x00, 0xFF, 0x0203, 0x30], [], 4) := by decide

/-- spec/45_undocumented.md R273's example. -/
theorem test_R273_sloZp :
    seen (step (start 0x01 0x00 0x00 0xFF 0x30 0x0200
    [(0x0010, 0x81#8), (0x0200, 0x07#8), (0x0201, 0x10#8)])) =
      some ([0x03, 0x00, 0x00, 0xFF, 0x0202, 0x31], [(0x0010, 0x81), (0x0010, 0x02)], 5) := by decide

/-- spec/45_undocumented.md R274's example. -/
theorem test_R274_rlaZp :
    seen (step (start 0xFF 0x00 0x00 0xFF 0x31 0x0200
    [(0x0010, 0x40#8), (0x0200, 0x27#8), (0x0201, 0x10#8)])) =
      some ([0x81, 0x00, 0x00, 0xFF, 0x0202, 0xB0], [(0x0010, 0x40), (0x0010, 0x81)], 5) := by decide

/-- spec/45_undocumented.md R275's example. -/
theorem test_R275_sreZp :
    seen (step (start 0x01 0x00 0x00 0xFF 0x30 0x0200
    [(0x0010, 0x03#8), (0x0200, 0x47#8), (0x0201, 0x10#8)])) =
      some ([0x00, 0x00, 0x00, 0xFF, 0x0202, 0x33], [(0x0010, 0x03), (0x0010, 0x01)], 5) := by decide

/-- spec/45_undocumented.md R276's example. -/
theorem test_R276_rraZp :
    seen (step (start 0x10 0x00 0x00 0xFF 0x30 0x0200
    [(0x0010, 0x03#8), (0x0200, 0x67#8), (0x0201, 0x10#8)])) =
      some ([0x12, 0x00, 0x00, 0xFF, 0x0202, 0x30], [(0x0010, 0x03), (0x0010, 0x01)], 5) := by decide

/-- spec/45_undocumented.md R277's example. -/
theorem test_R277_saxZp :
    seen (step (start 0xF0 0x3C 0x00 0xFF 0x30 0x0200
    [(0x0200, 0x87#8), (0x0201, 0x10#8)])) =
      some ([0xF0, 0x3C, 0x00, 0xFF, 0x0202, 0x30], [(0x0010, 0x30)], 3) := by decide

/-- spec/45_undocumented.md R278's example. -/
theorem test_R278_laxZp :
    seen (step (start 0x00 0x00 0x00 0xFF 0x30 0x0200
    [(0x0010, 0x80#8), (0x0200, 0xA7#8), (0x0201, 0x10#8)])) =
      some ([0x80, 0x80, 0x00, 0xFF, 0x0202, 0xB0], [], 3) := by decide

/-- spec/45_undocumented.md R279's example. -/
theorem test_R279_dcpZp :
    seen (step (start 0x05 0x00 0x00 0xFF 0x30 0x0200
    [(0x0010, 0x06#8), (0x0200, 0xC7#8), (0x0201, 0x10#8)])) =
      some ([0x05, 0x00, 0x00, 0xFF, 0x0202, 0x33], [(0x0010, 0x06), (0x0010, 0x05)], 5) := by decide

/-- spec/45_undocumented.md R280's example. -/
theorem test_R280_iscZp :
    seen (step (start 0x10 0x00 0x00 0xFF 0x31 0x0200
    [(0x0010, 0x0F#8), (0x0200, 0xE7#8), (0x0201, 0x10#8)])) =
      some ([0x00, 0x00, 0x00, 0xFF, 0x0202, 0x33], [(0x0010, 0x0F), (0x0010, 0x10)], 5) := by decide

/-- spec/45_undocumented.md R281's example. -/
theorem test_R281_ancImm0B :
    seen (step (start 0xF0 0x00 0x00 0xFF 0x30 0x0200
    [(0x0200, 0x0B#8), (0x0201, 0x80#8)])) =
      some ([0x80, 0x00, 0x00, 0xFF, 0x0202, 0xB1], [], 2) := by decide

/-- spec/45_undocumented.md R282's example. -/
theorem test_R282_alrImm :
    seen (step (start 0xFF 0x00 0x00 0xFF 0x30 0x0200
    [(0x0200, 0x4B#8), (0x0201, 0x03#8)])) =
      some ([0x01, 0x00, 0x00, 0xFF, 0x0202, 0x31], [], 2) := by decide

/-- spec/45_undocumented.md R283's example. -/
theorem test_R283_arrImm :
    seen (step (start 0xFF 0x00 0x00 0xFF 0x31 0x0200
    [(0x0200, 0x6B#8), (0x0201, 0xFF#8)])) =
      some ([0xFF, 0x00, 0x00, 0xFF, 0x0202, 0xB1], [], 2) := by decide

/-- spec/45_undocumented.md R284's example. -/
theorem test_R284_sbxImm :
    seen (step (start 0xF0 0x3F 0x00 0xFF 0x30 0x0200
    [(0x0200, 0xCB#8), (0x0201, 0x10#8)])) =
      some ([0xF0, 0x20, 0x00, 0xFF, 0x0202, 0x31], [], 2) := by decide

/-- spec/45_undocumented.md R285's example. -/
theorem test_R285_usbcImm :
    seen (step (start 0x10 0x00 0x00 0xFF 0x31 0x0200
    [(0x0200, 0xEB#8), (0x0201, 0x01#8)])) =
      some ([0x0F, 0x00, 0x00, 0xFF, 0x0202, 0x31], [], 2) := by decide


/-! ## Interrupts and reset (95_test_vectors.md section 6) -/

/-- Registers, addresses accessed and bytes written by a step. -/
def seenBus (o : Out) : Option (List Nat × List Nat × List (Nat × Nat)) :=
  (after o).map fun t => (registers t, accessed t, written t)

/-- I1's start. -/
def nmiStart : State :=
  { start 0x00 0x00 0x00 0xFF 0xB9 0x0300 [(0xFFFA, 0x00#8), (0xFFFB, 0x90#8)] with nmiPending := true }

/-- I2's start. -/
def irqStart : State :=
  { start 0x00 0x00 0x00 0xFF 0x30 0x0501 [(0xFFFE, 0x00#8), (0xFFFF, 0x06#8)] with irqLine := true }

/-- I5's start. -/
def resetStart : State :=
  { start 0x5A 0x00 0x00 0x00 0x38 0x1234 [(0xFFFC, 0x00#8), (0xFFFD, 0xF0#8)] with resetPending := true }

/-- A34's start. -/
def incStart : State := start 0x00 0x00 0x00 0xFF 0x30 0x0200 [(0x0010, 0xFF#8), (0x0200, 0xE6#8), (0x0201, 0x10#8)]

/-- 95_test_vectors.md I1. -/
theorem test_I1_nmi :
    seenBus (step nmiStart) =
      some ([0x00, 0x00, 0x00, 0xFC, 0x9000, 0xBD], [0x0300, 0x0300, 0x01FF, 0x01FE, 0x01FD, 0xFFFA, 0xFFFB],
        [(0x01FF, 0x03), (0x01FE, 0x00), (0x01FD, 0xA9)]) := by decide

/-- 95_test_vectors.md I2. -/
theorem test_I2_irq :
    seenBus (step irqStart) =
      some ([0x00, 0x00, 0x00, 0xFC, 0x0600, 0x34], [0x0501, 0x0501, 0x01FF, 0x01FE, 0x01FD, 0xFFFE, 0xFFFF],
        [(0x01FF, 0x05), (0x01FE, 0x01), (0x01FD, 0x20)]) := by decide

/-- 95_test_vectors.md I4: NMI first, and the IRQ waits. -/
theorem test_I4_nmi_before_irq :
    (after (step { nmiStart with irqLine := true })).map (fun t => (t.PC, t.nmiPending, t.irqLine, t.request)) =
      some (0x9000#16, false, true, none) := by decide

/-- 95_test_vectors.md I5. -/
theorem test_I5_reset :
    seenBus (step resetStart) =
      some ([0x5A, 0x00, 0x00, 0xFD, 0xF000, 0x3C], [0x1234, 0x1234, 0x0100, 0x01FF, 0x01FE, 0xFFFC, 0xFFFD], []) := by
  decide

/-- 95_test_vectors.md I6: neither write happens, and the reset sequence begins at the next instruction. -/
theorem test_I6_reset_inside :
    ((after (clockSteps 3 incStart)).bind fun t => after (step (resetInput t))).map
        (fun t => (accessed t, Memory.read t.mem 0x0010)) =
      some ([0x0202, 0x0202, 0x01FF, 0x01FE, 0x01FD, 0xFFFC, 0xFFFD], some 0xFF#8) := by decide

/-- 45_undocumented.md R272's example: `PC` is `0x0201` and no boundary comes. -/
theorem test_R272_jam02 :
    (after (clockSteps 7 (start 0x00 0x00 0x00 0xFF 0x30 0x0200 [(0x0200, 0x02#8)]))).map
      (fun t => (t.PC, t.boundary)) = some (0x0201#16, false) := by decide

/-! ## Traps, the queue and the cartridge (95_test_vectors.md section 7) -/

/-- A fixed small ROM at every address with bit 12 set, flat RAM elsewhere (T1 to T4). -/
def romStart (observer : Bool) (mem : Memory) : State :=
  { start 0x56 0x00 0x00 0xFF 0x30 0x0200 mem with
    observer
    cart := some { scheme := .fixedRom 2 0x00#8, rom := [0x7F#8, 0x10#8], bank := .none }
    platform := { Platform.flat with regions := [{ mask := 0x1000#16, value := 0x1000#16, dev := .cart }] } }

/-- `STA $1234`. -/
def staRom : Memory := [(0x0200, 0x8D#8), (0x0201, 0x34#8), (0x0202, 0x12#8)]

/-- 95_test_vectors.md T1 and T3: one event for a store, two for a read-modify-write; the instruction completes. -/
theorem test_T1_T3_traps :
    [staRom, [(0x0200, 0xEE#8), (0x0201, 0x34#8), (0x0202, 0x12#8)]].map (fun m =>
      (after (step (romStart true m))).map fun t => (t.traps.map TrapEvent.reason, t.PC, t.P.N, t.boundary)) =
    [some ([.invalidWrite], 0x0203#16, false, true),
      some ([.invalidWrite, .invalidWrite], 0x0203#16, true, true)] := by decide

/-- 95_test_vectors.md T2: without an observer the fourth clock step halts. -/
theorem test_T2_halt :
    (after (clockSteps 3 (romStart false staRom))).isSome = true ∧
    clockSteps 4 (romStart false staRom) = .fault (.trapWithoutObserver .invalidWrite) := by
  exact ⟨by decide, rfl⟩

/-- A hotspot cartridge, R330's example with a window of 8: hotspots at the two last offsets. -/
def hotCart (b : Nat) : Cartridge :=
  { scheme := .hotspot 8 2 [(6, 0), (7, 1)] true (some 0) 0x00#8
    rom := List.replicate 8 0x00#8 ++ List.replicate 8 0x01#8
    bank := .index b }

/-- 95_test_vectors.md H1 to H4 and H6. -/
theorem test_H_hotspots :
    (hotCart 0).read 0x1000#16 = (0x00#8, hotCart 0) ∧ (hotCart 0).read 0x1007#16 = (0x01#8, hotCart 1) ∧
    (hotCart 1).read 0x1000#16 = (0x01#8, hotCart 1) ∧ (hotCart 1).write 0x1006#16 0xAB#8 = some (hotCart 0) ∧
    (hotCart 1).write 0x1000#16 0xAB#8 = none := by decide

/-- 51_cartridge.md R335, with a window of 4: mirrors, padding at the low end, the low end dropped, the empty image. -/
theorem test_R335_fixedRom :
    fixedRomBytes 4 0x00#8 [0xAA#8, 0xBB#8] = [0x00#8, 0x00#8, 0xAA#8, 0xBB#8] ∧
    fixedRomBytes 4 0x00#8 [0#8, 1#8, 2#8, 3#8, 4#8, 5#8] = [2#8, 3#8, 4#8, 5#8] ∧
    ((Scheme.build (.fixedRom 4 0x00#8) [0#8, 1#8, 2#8, 3#8] 0).map fun c =>
      [0x0000#16, 0x0004#16, 0xF800#16, 0xFFFF#16].map fun a => (c.read a).1) = some [0#8, 0#8, 0#8, 3#8] ∧
    Scheme.build (.fixedRom 4 0x00#8) [] 0 = none := by decide

/-- 51_cartridge.md R336. -/
theorem test_R336_headers :
    [[0x55#8, 0#8, 0#8, 0#8, 0#8, 0#8, 0#8, 0#8], [0x10#8, 0x20#8, 0x03#8, 0x18#8, 0x0A#8, 0#8, 0#8, 0#8],
      [0xFF#8, 0xFF#8, 0x57#8, 0#8, 0#8, 0#8, 0#8, 0#8], [0x55#8, 0x01#8, 0#8, 0#8, 0#8, 0#8, 0#8, 0#8]].map verifyHeader =
      [true, true, true, false] := by decide

/-- A multi-load header's layout of ten bytes at the front of a load, so that an image can be written out. -/
def smallLayout : HeaderLayout :=
  { loadSize := 12, header := 0, startLow := 0, startHigh := 1, control := 2, blockCount := 3, checksum := 4, loadId := 5
    speedLow := 6, speedHigh := 7, locations := (8, 1), blockChecksums := (9, 1), checked := [0, 1, 2, 3, 4, 5, 6, 7] }

/-- A load whose header holds the bytes of R336's second header. -/
def smallLoad : List Byte :=
  [0x10#8, 0x20#8, 0x03#8, 0x18#8, 0x0A#8, 0#8, 0#8, 0#8, 0x0D#8, 0x71#8, 0xAA#8, 0xBB#8]

/-- R327: the fields of a header, the low byte of a word first. -/
theorem test_R327_fields :
    (let h := smallLayout.read smallLoad
     h.start = 0x2010#16 ∧ h.control = 0x03#8 ∧ h.blockCount = 0x18#8 ∧ h.checksum = 0x0A#8 ∧ h.loadId = 0x00#8 ∧
     h.speed = 0x0000#16 ∧ h.locations = [0x0D#8] ∧ h.blockChecksums = [0x71#8]) := by decide

/-- R328: the header of every load is checked, not the first one's alone. -/
theorem test_R328_every_load :
    [smallLoad ++ smallLoad, smallLoad ++ List.replicate 12 0#8, smallLoad ++ [0#8]].map
      (fun image => (loadCartridge image (some (.multiLoad smallLayout)) State.reset).isSome) = [true, false, false] := by
  decide

/-- What a run of queue operations comes to: the calls of each `execute`, the slots, `where`, `next`. -/
structure QueueSeen where
  calls   : List (List (Nat × Byte))
  slots   : List (List (Nat × Byte))
  whereIs : List (Nat × Nat)
  next    : Nat
  deriving DecidableEq

/-- A run on a new queue. -/
def queueRun (n k : Nat) (dests : List Nat) (ops : List QueueOp) : Option QueueSeen :=
  (DelayQueue.new n k dests).bind fun q =>
    match runQueue ops q with
    | .ok (log, t) => some ⟨log, t.slots, t.whereIs, t.next⟩
    | .error _ => none

/-- 50_delay_queue.md R315, steps 1 to 6, the destinations `p, q, r` being 0, 1, 2. -/
theorem test_R315_first_rows :
    queueRun 4 2 [0, 1, 2] [.push 0 0x11 2, .push 1 0x22 0, .execute, .push 0 0x33 0, .push 2 0x44 3] =
      some ⟨[[(1, 0x22#8)]], [[(2, 0x44#8)], [(0, 0x33#8)], [], []], [(0, 1), (2, 0)], 1⟩ := by decide

/-- 50_delay_queue.md R315, to step 9. -/
theorem test_R315_scenario :
    queueRun 4 2 [0, 1, 2] [.push 0 0x11 2, .push 1 0x22 0, .execute, .push 0 0x33 0, .push 2 0x44 3, .execute,
        .execute, .execute, .execute] =
      some ⟨[[(1, 0x22#8)], [(0, 0x33#8)], [], [], [(2, 0x44#8)]], [[], [], [], []], [], 1⟩ := by decide

/-- 50_delay_queue.md R315: the overflow run. -/
theorem test_R315_overflow :
    queueRun 2 1 [0, 1] [.push 0 1 1, .push 1 2 1] = none ∧
    queueRun 2 1 [0, 1] [.push 0 1 1, .push 0 3 1] = some ⟨[], [[], [(0, 3#8)]], [(0, 1)], 0⟩ ∧
    queueRun 4 2 [0] [.push 0 1 4] = none := by decide

/-- `STA $1234` to a chip register with a delay, about to make its write cycle. -/
def chipStart (delay : Nat) : State :=
  { start 0x56 0x00 0x00 0xFF 0x30 0x0200 staRom with
    dq := { depth := 8, capacity := 1, dests := [5], slots := [[], [], [], [], [], [], [], []], whereIs := [], next := 0 }
    platform := { Platform.flat with
      regions := [{ mask := 0xF000#16, value := 0x1000#16, dev := .chip }]
      delayed := [{ addr := 0x1234#16, dest := 5, delay }] } }

/-- What the handler receives in the tick of the write and in the next one. -/
def chipCalls (delay : Nat) : Option (List (Nat × Byte) × List (Nat × Byte)) :=
  (after (clockSteps 3 (chipStart delay))).bind fun s =>
    match tick (fun _ => []) s with
    | .next (calls, t) =>
      match tick (fun _ => []) { t with PC := 0x0200#16 } with
      | .next (calls', _) => some (calls, calls')
      | .fault _ => none
      | .refused _ => none
    | .fault _ => none
    | .refused _ => none

/-- 95_test_vectors.md section 7: delay 2 fires in tick 1, delay 3 in tick 2. -/
theorem test_tick_latency :
    chipCalls 2 = some ([(5, 0x56#8)], []) ∧ chipCalls 3 = some ([], [(5, 0x56#8)]) := by decide

/-- R369, R78: with the CPU last, the handler's calls of a tick come before its write, so delay 2 fires in tick 2. -/
theorem test_tick_cpu_last :
    (let s := { chipStart 2 with
      platform := { (chipStart 2).platform with driverOrder := { before := [], each := [.queue, .chip], after := [.cpu] } } }
     ((after (clockSteps 3 s)).bind fun s =>
       match tick (fun _ => []) s with
       | .next (calls, t) =>
         match tick (fun _ => []) { t with PC := 0x0200#16 } with
         | .next (calls', _) => some (calls, calls')
         | .fault _ => none
         | .refused _ => none
       | .fault _ => none
       | .refused _ => none) = some ([], [(5, 0x56#8)])) := by decide

/-- 44_stack_flags_system.md, R371: register inspection shows `pack(1)`. -/
theorem test_inspect : (inspect (start 1 2 3 4 0xC3 0x1234 [])).P = 0xF3#8 := by decide

/-! ## Witnesses: states and operands that meet the hypotheses of the obligations -/

/-- A step that answers a next state. -/
def runs (s : State) : Prop := ∃ t, step s = .next t

theorem witness_EncodeDecode : decode [0xA9#8, 0x01#8, 0xEA#8] = .ok (.ldaImm 0x01#8, [0xEA#8]) := by decide

theorem witness_DecodeByLength :
    opLength 0xEA#8 ≤ ([] : List Byte).length + 1 ∧ opLength 0xA9#8 ≤ [0x01#8].length + 1 ∧
    opLength 0xAD#8 ≤ [0x01#8, 0x02#8].length + 1 ∧ ([] : List Byte).length + 1 < opLength 0xA9#8 ∧
    [0x01#8].length + 1 < opLength 0xAD#8 := by decide

/-- The instruction lies across the end of the address space. -/
theorem witness_StepRunsInstruction :
    (let s := start 0x00 0x00 0x00 0xFF 0x30 0xFFFF [(0x0000, 0x34#8), (0x0001, 0x12#8), (0xFFFF, 0xAD#8)]
     s.phase = .idle ∧ s.request = none ∧ s.quiet = true ∧
     ∀ k (h : k < (encode (.ldaAbs 0x1234#16)).length),
       ramByte s (s.PC + BitVec.ofNat 16 k) = some (encode (.ldaAbs 0x1234#16))[k]) := by decide

/-- The clauses of a next state, of a halt and of a refusal. -/
theorem witness_StepIsClockSteps :
    incStart.phase = .idle ∧ (∃ t, step incStart = .next t ∧ 0 < 4 ∧ 4 < t.trace.length) ∧
    step (romStart false staRom) = .fault (.trapWithoutObserver .invalidWrite) ∧
    step (start 0x00 0x00 0x00 0xFF 0x30 0x0200 [(0x0200, 0x8B#8), (0x0201, 0x01#8)]) = .refused (.unstableOpcode 0x8B#8) :=
  ⟨rfl, ⟨_, rfl, by decide, by decide⟩, rfl, rfl⟩

theorem witness_OneAccessPerCycle : incStart.phase ≠ .fatal ∧ ∃ t, clockStep incStart = .next t :=
  ⟨by decide, _, rfl⟩

theorem witness_FatalHalt : (haltMark incStart).phase = .fatal := rfl

/-- Each of the four requests, and a cycle inside a sequence. -/
theorem witness_BoundaryRequests :
    resetStart.request = some .reset ∧ nmiStart.request = some .nmi ∧ irqStart.request = some .irq ∧
    { irqStart with P := unpack 0x34#8 }.request = none ∧ runs resetStart ∧ runs nmiStart ∧ runs irqStart ∧ runs incStart ∧
    ∃ s sq t, clockStep incStart = .next s ∧ s.phase = .run sq ∧ clockStep s = .next t :=
  ⟨rfl, rfl, rfl, rfl, ⟨_, rfl⟩, ⟨_, rfl⟩, ⟨_, rfl⟩, ⟨_, rfl⟩, _, _, _, rfl, rfl, rfl⟩

theorem witness_ResetSequence :
    resetStart.phase = .idle ∧ resetStart.resetPending = true ∧ resetStart.quiet = true ∧ runs resetStart ∧
    ramByte resetStart 0xFFFC#16 = some 0x00#8 ∧ ramByte resetStart 0xFFFD#16 = some 0xF0#8 :=
  ⟨rfl, rfl, by decide, ⟨_, rfl⟩, by decide, by decide⟩

/-- With the stack wrapping at both places. -/
theorem witness_InterruptEntry :
    (let s := { nmiStart with S := 0x00#8 }
     s.phase = .idle ∧ s.request = some .nmi ∧ s.quiet = true ∧ stackAccepts s) ∧
    (let s := { irqStart with S := 0x01#8 }
     s.phase = .idle ∧ s.request = some .irq ∧ s.quiet = true ∧ stackAccepts s) := by
  unfold stackAccepts; decide

theorem witness_BreakEntry : stackAccepts (start 0x00 0x00 0x00 0x00 0x30 0x0401 []) := by unfold stackAccepts; decide

/-- A stack that wraps inside the three pulls. -/
theorem witness_ReturnFromInterrupt :
    (let s := start 0x00 0x00 0x00 0xFE 0x34 0x8001 [(0x0100, 0x02#8), (0x0101, 0x04#8), (0x01FF, 0x30#8)]
     ramByte s (stackAddr (s.S + 1)) = some 0x30#8 ∧ ramByte s (stackAddr (s.S + 2)) = some 0x02#8 ∧
     ramByte s (stackAddr (s.S + 3)) = some 0x04#8) := by decide

theorem witness_InterruptRoundTrip :
    (let s := { nmiStart with S := 0x01#8 }
     stackInRam s ∧ s.quiet = true ∧ s.phase = .idle ∧ s.request = some .nmi) ∧
    stackInRam irqStart ∧ irqStart.quiet = true ∧ irqStart.phase = .idle ∧ irqStart.request = some .irq :=
  ⟨⟨⟨0x0101, 0x0100, 0x01FF, by decide⟩, by decide, rfl, rfl⟩, ⟨0x01FF, 0x01FE, 0x01FD, by decide⟩, by decide, rfl, rfl⟩

/-- B15 and B14. -/
theorem witness_Subroutines :
    (let s := start 0x00 0x00 0x00 0x00 0x30 0x0302 [(0x0302, 0x40#8)]
     s.accepts (stackAddr s.S) = true ∧ s.accepts (stackAddr (s.S - 1)) = true ∧
     ramByte s s.PC = some (hiByte 0x4000#16) ∧ s.ramCell s.PC ≠ s.ramCell (stackAddr s.S) ∧
     s.ramCell s.PC ≠ s.ramCell (stackAddr (s.S - 1))) ∧
    (let s := start 0x00 0x00 0x00 0xFE 0x30 0x1235 [(0x0100, 0x03#8), (0x01FF, 0x02#8)]
     ramByte s (stackAddr (s.S + 1)) = some 0x02#8 ∧ ramByte s (stackAddr (s.S + 2)) = some 0x03#8) := by decide

theorem witness_SubroutineRoundTrip :
    (let s := start 0x00 0x00 0x00 0x00 0x30 0x0302 []
     s.ramCell (stackAddr s.S) = some 0x0100 ∧ s.ramCell (stackAddr (s.S - 1)) = some 0x01FF ∧ 0x0100 ≠ 0x01FF) := by
  decide

theorem witness_ResetInput : incStart.phase ≠ .fatal := by decide

/-- The first lock-up cycle, the two at `0xFFFE` and the ones after. -/
theorem witness_JamLocksUp :
    (0x02#8, Instr.jam02) ∈ jamForms.map (fun f => (f.1, f.2)) ∧ incStart.undoc = .annex ∧
    ∀ t ∈ [3, 4, 5, 6], (let s := { incStart with phase := .run { ir := .op 0x02#8, t, q := Latches.empty } }
      3 ≤ t ∧ s.quiet = true ∧ (after (clockSteps 2 s)).isSome = true) := by decide

/-- Every form of the write and rmw classes has an address that accepts a write; `UNDOC_POLICY` is `annex`. -/
theorem witness_Stores_IncDecMemory_Shifts_UndocReadModifyWrite_SaxLax :
    incStart.undoc = .annex ∧
    ∀ e ∈ staForms ++ stxForms ++ styForms ++ incForms ++ decForms ++ aslForms ++ lsrForms ++ rolForms ++ rorForms ++
        sloForms ++ rlaForms ++ sreForms ++ rraForms ++ dcpForms ++ iscForms ++ saxForms,
      incStart.accepts (e.mode.address 0xFFFF#16 incStart).1 = true := by decide

/-- A write that an observer's cartridge accepts. -/
theorem witness_Stores_over_rom :
    (romStart true staRom).accepts (Mode.address .abs 0x1234#16 (romStart true staRom)).1 = true := by decide

theorem witness_UndocNops_UndocImmediates_ArrBothModes : State.reset.undoc = .annex := rfl

theorem witness_DecimalArithmetic : isBcd 0x99#8 ∧ isBcd 0x00#8 := by unfold isBcd; decide

/-- Not taken; taken within the page; taken out of it in both directions. -/
theorem witness_Branches :
    (let s := start 0x00 0x00 0x00 0xFF 0x30 0x0202 []
     ((0xD0#8, Instr.bne 0x05#8) ∈ branchForms.map fun f => (f.1, f.2.2 0x05#8)) ∧
     (unpack 0x32#8).Z = true ∧ s.P.Z = false ∧ hiByte (s.PC + (0x05#8).signExtend 16) = hiByte s.PC ∧
     hiByte (s.PC + (0xFC#8).signExtend 16) ≠ hiByte s.PC ∧
     hiByte (0x0010#16 + (0x80#8).signExtend 16) ≠ hiByte 0x0010#16) := by decide

/-- The pointer wraps in its page. -/
theorem witness_Jumps :
    (let s := start 0x00 0x00 0x00 0xFF 0x30 0x0400 [(0x0200, 0x12#8), (0x02FF, 0x34#8), (0x0300, 0x56#8)]
     ramByte s 0x02FF#16 = some 0x34#8 ∧
     ramByte s (mkAddr (hiByte 0x02FF#16) (loByte 0x02FF#16 + 1)) = some 0x12#8) := by decide

theorem witness_StackInstructions :
    (start 0x42 0x00 0x00 0x00 0x30 0x0201 []).accepts (mkAddr 0x01#8 0x00#8) = true ∧
    ramByte (start 0x00 0x00 0x00 0xFF 0x30 0x0201 [(0x0100, 0x80#8)]) (mkAddr 0x01#8 (0xFF#8 + 1)) = some 0x80#8 := by
  decide

theorem witness_UndocPolicy :
    { incStart with undoc := .refuse }.undoc = .refuse ∧ opcode .jam02 ∈ undocumentedOps ∧
    opcode (.iscAbx 0x1234#16) ∈ undocumentedOps ∧ opcode .brk ∉ undocumentedOps ∧ incStart.undoc = .annex ∧
    opcode (.sloZp 0x10#8) ∉ unstableOps := by decide

/-- Every byte of page 0 and of the page after it that the modes below read. -/
def operandStart : State :=
  start 0x00 0x20 0x02 0xFF 0x30 0x0200 [(0x0000, 0x12#8), (0x0001, 0x22#8), (0x0010, 0x42#8), (0x0012, 0x00#8),
    (0x001F, 0x34#8), (0x0020, 0x12#8), (0x00F0, 0x99#8), (0x00FE, 0x11#8), (0x00FF, 0xFF#8), (0x1201, 0x06#8),
    (0x1210, 0x05#8), (0x1234, 0x5A#8), (0x1301, 0x07#8), (0x1310, 0x08#8), (0xFF01, 0x33#8)]

/-- Each mode at a place where it wraps, and the indexed ones with and without a page crossing. -/
theorem witness_OperandOverRam :
    (let s := operandStart
     ramByte s (mkAddr 0#8 (loByte 0x00F0#16)) = some 0x99#8 ∧
     ramByte s (mkAddr 0#8 (loByte 0x00F0#16 + s.X)) = some 0x42#8 ∧
     ramByte s (mkAddr 0#8 (loByte 0x00FE#16 + s.Y)) = some 0x12#8 ∧
     ramByte s 0x1234#16 = some 0x5A#8 ∧
     ramByte s (0x12F0#16 + s.X.setWidth 16) = some 0x08#8 ∧
     ramByte s (mkAddr (hiByte 0x12F0#16) (loByte 0x12F0#16 + s.X)) = some 0x05#8 ∧
     ramByte s (0xFFFF#16 + s.Y.setWidth 16) = some 0x22#8 ∧
     ramByte s (mkAddr (hiByte 0xFFFF#16) (loByte 0xFFFF#16 + s.Y)) = some 0x33#8 ∧
     ramByte s (0x1232#16 + s.Y.setWidth 16) = some 0x5A#8 ∧
     (ramByte s (mkAddr 0#8 (loByte 0x00FF#16)) = some 0xFF#8 ∧
       ramByte s (mkAddr 0#8 (loByte 0x00FF#16 + s.X)) = some 0x34#8 ∧
       ramByte s (mkAddr 0#8 (loByte 0x00FF#16 + s.X + 1)) = some 0x12#8 ∧ ramByte s (mkAddr 0x12#8 0x34#8) = some 0x5A#8) ∧
     (ramByte s (mkAddr 0#8 (loByte 0x00FF#16)) = some 0xFF#8 ∧
       ramByte s (mkAddr 0#8 (loByte 0x00FF#16 + 1)) = some 0x12#8 ∧
       ramByte s (mkAddr 0x12#8 0xFF#8 + s.Y.setWidth 16) = some 0x07#8 ∧
       ramByte s (mkAddr 0x12#8 (0xFF#8 + s.Y)) = some 0x06#8)) := by decide

/-- A bus on which every kind of device answers: a RAM mirrored in its range, a hotspot cartridge, two delayed registers
of the chip, the second with too great a delay, and a device outside the block. -/
def busStart : State :=
  { incStart with
    cart := some (hotCart 0), dq := (chipStart 2).dq
    platform := { Platform.flat with
      addrMask := 0x1FFF#16
      regions :=
        [ { mask := 0x1F00#16, value := 0x0300#16, dev := .ram 0x0200#16 0x000F#16 },
          { mask := 0x1F00#16, value := 0x0400#16, dev := .chip },
          { mask := 0x1F00#16, value := 0x0500#16, dev := .other 3 },
          { mask := 0x1000#16, value := 0x1000#16, dev := .cart } ]
      delayed := [{ addr := 0x0401#16, dest := 5, delay := 2 }, { addr := 0x0402#16, dest := 5, delay := 8 }] } }

/-- A mirror of the address written, other addresses of its cell, another cell, and a cell that nothing has written. -/
theorem witness_RamBus :
    (let s := busStart
     0xE010#16 &&& s.platform.addrMask = 0x0010#16 &&& s.platform.addrMask ∧ s.ramCell 0x0010#16 = some 0x0010 ∧
     s.ramCell 0x0311#16 = some 0x0201 ∧ s.ramCell 0x23F1#16 = some 0x0201 ∧ s.ramCell 0x0201#16 = some 0x0201 ∧
     0x0200 ≠ 0x0201 ∧ s.ramCell 0x0302#16 ≠ none ∧ ramByte s 0x0302#16 = none) := by decide

/-- A hotspot, both delayed registers, and the device outside the block. -/
theorem witness_RamBus_devices :
    (let s := busStart
     s.route 0xFFFF#16 = .cart ∧ s.cart = some (hotCart 0) ∧
     (hotCart 0).write (s.busAddr 0xFFFF#16) 0x00#8 = some (hotCart 1) ∧
     s.route 0x0401#16 = .chip ∧ s.delayedAt 0x0401#16 = some { addr := 0x0401#16, dest := 5, delay := 2 } ∧
     (match s.dq.push 5 0x01#8 2 with
      | .ok _ => true
      | .error _ => false) = true ∧
     s.route 0x0402#16 = .chip ∧ s.delayedAt 0x0402#16 = some { addr := 0x0402#16, dest := 5, delay := 8 } ∧
     (match s.dq.push 5 0x01#8 8 with
      | .ok _ => none
      | .error f => some f) = some Fault.configError ∧
     s.halt = false ∧ s.route 0xE5FF#16 = .other 3 ∧ s.observer = false ∧ { s with observer := true }.observer = true) := by
  decide

theorem witness_RomWrites :
    ∀ b, (let s := romStart b staRom
      s.route 0x1234#16 = .cart ∧ s.observer = b ∧ s.halt = false ∧
      ∃ c, s.cart = some c ∧ (∀ l, c.scheme ≠ .multiLoad l) ∧ c.switchesAt (s.busAddr 0x1234#16) = false) :=
  fun b => ⟨by cases b <;> decide, rfl, rfl, _, rfl, nofun, rfl⟩

/-- An address away from the hotspots of a hotspot cartridge, too. -/
theorem witness_RomWrites_hotspot :
    (hotCart 0).switchesAt 0x1000#16 = false ∧ ∀ l, (hotCart 0).scheme ≠ .multiLoad l := ⟨by decide, nofun⟩

theorem witness_PeekPoke :
    incStart.ramCell 0xFFFF#16 = some 0xFFFF ∧ (romStart true staRom).ramCell 0x1000#16 = none := by decide

/-- The smallest window and the document's, an image cut and an image padded. -/
theorem witness_FixedRom :
    isWindow 1 = true ∧ isWindow 2048 = true ∧ [0x01#8, 0x02#8] ≠ [] ∧ 0 < 1 ∧ 0 < [0x01#8, 0x02#8].length ∧
    2046 < 2048 - [0x00#8].length := by decide

theorem witness_HeaderCheck :
    (let h := [0xFF#8, 0xFF#8, 0x57#8, 0#8, 0#8, 0#8, 0#8, 0#8]
     h.length = 8 ∧ verifyHeader h = true ∧ h[0]? ≠ some 0x00#8 ∧ h[7]? ≠ some 0x01#8) ∧
    8448 ≤ (List.replicate 8448 0x55#8).length := by
  rw [List.length_replicate]
  decide

/-- A read that switches, a read elsewhere, a scheme that switches on writes alone, both kinds of write. -/
theorem witness_Hotspots :
    (hotCart 1).wf = true ∧ hotspotAt [(6, 0), (7, 1)] (0xFFFF % 8) = some 1 ∧
    hotspotAt [(6, 0), (7, 1)] (0x1005 % 8) = none ∧
    { hotCart 0 with scheme := .hotspot 8 2 [(6, 0), (7, 1)] false none 0x00#8 }.wf = true := by decide

/-- A platform that knows two hotspot schemes and the small layout. -/
def loaderStart : State :=
  { incStart with
    platform := { Platform.flat with
      cartWindow := 4, mlHeader := smallLayout, hotspots := [(hotCart 0).scheme, .hotspot 4 8 [] true none 0xFF#8] } }

/-- Each scheme declared, a multi-load image of two loads among them; and the refused ones: a window that is no power of
two, an image of a wrong length, a second load whose header does not verify. -/
theorem witness_LoadCartridge :
    (let load := fun image scheme => (loadCartridge image (some scheme) loaderStart).isSome
     load [0x01#8] (.fixedRom 8 0xFF#8) = true ∧ load [0x01#8] (.fixedRom 12 0xFF#8) = false ∧
     load (List.replicate 16 0x01#8) (hotCart 0).scheme = true ∧
     load (List.replicate 32 0x01#8) (.hotspot 4 8 [] true none 0xFF#8) = true ∧
     load (List.replicate 15 0x01#8) (hotCart 0).scheme = false ∧
     load (smallLoad ++ smallLoad) (.multiLoad smallLayout) = true ∧
     load (smallLoad ++ [0#8]) (.multiLoad smallLayout) = false ∧
     load (smallLoad ++ List.replicate 12 0#8) (.multiLoad smallLayout) = false) := by decide

/-- Detection by length: the greatest of the fixed small ROM, one load and two, each hotspot scheme, and none. -/
theorem witness_LoadCartridge_detect :
    (let p := loaderStart.platform
     [1, 4, 5, 12, 24, 16, 32, 33].map (fun n => detect p (List.replicate n 0x00#8)) =
       [some (.fixedRom 4 0x00#8), some (.fixedRom 4 0x00#8), none, some (.multiLoad smallLayout),
         some (.multiLoad smallLayout), some (hotCart 0).scheme, some (.hotspot 4 8 [] true none 0xFF#8), none]) ∧
    (loadCartridge [0x01#8] none loaderStart).isSome = true ∧
    (loadCartridge (smallLoad ++ smallLoad) none loaderStart).isSome = true ∧ loadCartridge [] none loaderStart = none := by
  decide

/-- A queue of four slots, its next slot the last, holding a pair. -/
def someQueue : DelayQueue :=
  { depth := 4, capacity := 1, dests := [0, 1], slots := [[], [], [], [(1, 0x22#8)]], whereIs := [(1, 3)], next := 3 }

/-- The queue after a push with the greatest delay. -/
def pushedQueue : DelayQueue :=
  { someQueue with slots := [[], [], [(0, 0x11#8)], [(1, 0x22#8)]], whereIs := [(0, 2), (1, 3)] }

/-- The `execute` numbered `delay + 1` and the ones around it, with a push to another destination between. -/
theorem witness_QueueLatency :
    someQueue.Inv ∧ someQueue.push 0 0x11#8 3 = .ok pushedQueue ∧
    (∀ d v n, QueueOp.push d v n ∈ [.execute, .push 1 0x33#8 0, .execute, .execute, .execute, .execute] → d ≠ 0) ∧
    ∃ log u, runQueue [.execute, .push 1 0x33#8 0, .execute, .execute, .execute, .execute] pushedQueue = .ok (log, u) ∧
      ∀ k ∈ [2, 3, 4], log[k]?.isSome = true := by
  refine ⟨by decide, rfl, ?_, _, _, rfl, by decide⟩
  rintro d v n h
  simp at h
  omega

/-- Too great a delay, a destination of no register, a full slot, and a push that removes the pair that fills it. -/
theorem witness_QueuePush :
    someQueue.Inv ∧ someQueue.depth ≤ 4 ∧ 2 ∉ someQueue.dests ∧ 0 < someQueue.depth ∧ 3 < someQueue.depth ∧
    0 ∈ someQueue.dests ∧ 1 ∈ someQueue.dests ∧
    ((someQueue.slot 3).filter fun p => p.1 != 0).length = someQueue.capacity ∧
    ((someQueue.slot 3).filter fun p => p.1 != 1).length < someQueue.capacity := by decide

theorem witness_QueueInvariant :
    DelayQueue.new 1 1 [] = some DelayQueue.initial ∧ someQueue.Inv ∧ someQueue.push 0 0x11#8 3 = .ok pushedQueue :=
  ⟨rfl, by decide, rfl⟩

/-- In the default order and with the CPU last. -/
theorem witness_Tick :
    (let s := chipStart 0
     s.phase ≠ .fatal ∧ s.platform.driverOrder = { before := [.cpu], each := [.queue, .chip], after := [] } ∧
     ∃ t, clockStep s = .next t) ∧
    (let s := { chipStart 0 with
      platform := { (chipStart 0).platform with driverOrder := { before := [], each := [.queue, .chip], after := [.cpu] } } }
     s.phase ≠ .fatal ∧ s.platform.driverOrder = { before := [], each := [.queue, .chip], after := [.cpu] } ∧
     ∃ t, clockStep { s with dq := (executes s.platform.chipRatio s.dq).2 } = .next t) :=
  ⟨⟨by decide, rfl, _, rfl⟩, by decide, rfl, _, rfl⟩

/-- A state with memory, a pending pair and a cartridge. -/
def fullState : State := { romStart true staRom with dq := someQueue }

theorem witness_StepKeepsInvariant_StepKeepsConstants : fullState.Inv ∧ runs fullState :=
  ⟨by decide, _, rfl⟩

/-- The requests that no step raises are there to be kept. -/
theorem witness_StepKeepsConstants_requests :
    ∃ t, step { resetStart with nmiPending := true } = .next t ∧ t.nmiPending = true := ⟨_, rfl, rfl⟩

/-- A step that leaves an event, from a state in which no event is a decode failure; and such a state with an event. -/
theorem witness_StepKeepsConstants_events :
    (∃ t, step (romStart true staRom) = .next t ∧ (∀ e ∈ (romStart true staRom).traps, e.reason ≠ .decodeFailure) ∧
      t.traps.map TrapEvent.reason = [.invalidWrite]) ∧
    (let s : State := { resetStart with phase := .fatal, traps := [trapEvent .invalidRead .bus] }
     (∀ e ∈ s.traps, e.reason ≠ .decodeFailure) ∧ step s = .next { s with boundary := false } ∧
       clockStep s = .next { s with boundary := false }) :=
  ⟨⟨_, rfl, nofun, rfl⟩, List.forall_mem_singleton.mpr nofun, rfl, rfl⟩

/-- For each register an instruction that does not write it, and for each flag. -/
theorem witness_RegistersWritten_FlagsWritten :
    (opcode (.incZp 0x10#8) ∉ writesA ∧ opcode (.incZp 0x10#8) ∉ writesX ∧ opcode (.incZp 0x10#8) ∉ writesY ∧
      opcode (.incZp 0x10#8) ∉ writesS ∧ opcode (.incZp 0x10#8) ∉ writesPC) ∧
    (opcode (.staZp 0x10#8) ∉ writesNZ ∧ opcode (.staZp 0x10#8) ∉ writesV ∧ opcode (.staZp 0x10#8) ∉ writesD ∧
      opcode (.staZp 0x10#8) ∉ writesI ∧ opcode (.staZp 0x10#8) ∉ writesC) ∧
    (∃ t, exec (.incZp 0x10#8) incStart = .next t) ∧ ∃ t, exec (.staZp 0x10#8) incStart = .next t :=
  ⟨by decide, by decide, ⟨_, rfl⟩, _, rfl⟩

/-- An instruction that stores nothing, and each shape that stores, with a cell that it does not reach. -/
theorem witness_MemoryFrame :
    opcode (.ldaZp 0x10#8) ∉ storesByte ∧ (∃ t, exec (.ldaZp 0x10#8) incStart = .next t) ∧
    incStart.platform.regions.all (fun r => r.dev.own) = true ∧
    (∃ t, exec (.incZp 0x10#8) incStart = .next t) ∧ incStart.ramCell (Mode.address .zp 0x0010#16 incStart).1 ≠ some 0x0011 ∧
    (∃ t, exec .pha incStart = .next t) ∧ (∃ t, exec .php incStart = .next t) ∧
    (∃ t, exec (.jsr 0x1234#16) incStart = .next t) ∧ (∃ t, exec .brk incStart = .next t) ∧
    incStart.ramCell (stackAddr incStart.S) ≠ some 0x01FC ∧ incStart.ramCell (stackAddr (incStart.S - 1)) ≠ some 0x01FC ∧
    incStart.ramCell (stackAddr (incStart.S - 2)) ≠ some 0x01FC :=
  ⟨by decide, ⟨_, rfl⟩, rfl, ⟨_, rfl⟩, by decide, ⟨_, rfl⟩, ⟨_, rfl⟩, ⟨_, rfl⟩, ⟨_, rfl⟩, by decide, by decide,
    by decide⟩

end Sys2Proof.Tests
end

section
/-! What no step changes (R12, R37, R44, R46, R47, R300, R351), and that no step halts by a decode failure (R361): the
premises of the induction over a step in Laws/StepKeeps.lean, and how a boundary's step halts the block. -/

namespace Sys2Proof.Machine

/-! ## The constants -/

/-- A push changes neither the queue's parameters (R300) nor its pointer, which only `execute` moves (R306). -/
theorem DelayQueue.push_constants {q t : DelayQueue} {d delay : Nat} {v : Byte} (h : q.push d v delay = .ok t) :
    t.depth = q.depth ∧ t.capacity = q.capacity ∧ t.dests = q.dests ∧ t.next = q.next := by
  obtain ⟨_, _, _, rfl⟩ := DelayQueue.push_cases h
  exact ⟨q.cancel_depth d, q.cancel_capacity d, q.cancel_dests d, q.cancel_next d⟩

/-- A bus write changes neither the queue's parameters nor its pointer. -/
theorem busWrite_dq_constants {a : Addr} {v : Byte} {s t : State} (h : busWrite a v s = .ok t) :
    t.dq.depth = s.dq.depth ∧ t.dq.capacity = s.dq.capacity ∧ t.dq.dests = s.dq.dests ∧ t.dq.next = s.dq.next := by
  obtain ⟨_, _, q, _, _, rfl, _, _, _, hq, _⟩ := busWrite_cases h
  rcases hq with rfl | ⟨_, hpush⟩
  · exact ⟨rfl, rfl, rfl, rfl⟩
  · exact DelayQueue.push_constants hpush

/-- `t` has every constant of `s`: the platform's parameters and the policy (R12), the IRQ line (R37), the observer
(R47), the queue's parameters (R300) and pointer, and the cartridge's scheme and ROM (R44, R46). -/
def SameConstants (s t : State) : Prop :=
  t.platform = s.platform ∧ t.undoc = s.undoc ∧ t.irqLine = s.irqLine ∧ t.observer = s.observer ∧
    (t.dq.depth = s.dq.depth ∧ t.dq.capacity = s.dq.capacity ∧ t.dq.dests = s.dq.dests ∧ t.dq.next = s.dq.next) ∧
    t.cart.map (fun c => (c.scheme, c.rom)) = s.cart.map (fun c => (c.scheme, c.rom))

theorem SameConstants.refl (s : State) : SameConstants s s := ⟨rfl, rfl, rfl, rfl, ⟨rfl, rfl, rfl, rfl⟩, rfl⟩

theorem SameConstants.trans {s t u : State} (h : SameConstants s t) (h' : SameConstants t u) : SameConstants s u := by
  obtain ⟨hp, hu, hi, ho, ⟨hd, hc, hs, hn⟩, hcart⟩ := h
  obtain ⟨hp', hu', hi', ho', ⟨hd', hc', hs', hn'⟩, hcart'⟩ := h'
  exact ⟨hp'.trans hp, hu'.trans hu, hi'.trans hi, ho'.trans ho,
    ⟨hd'.trans hd, hc'.trans hc, hs'.trans hs, hn'.trans hn⟩, hcart'.trans hcart⟩

theorem busRead_sameConstants (a : Addr) (s : State) : SameConstants s (busRead a s).2 := by
  refine ⟨busRead_platform a s, busRead_undoc a s, busRead_irqLine a s, busRead_observer a s, ?_, busRead_cart a s⟩
  rw [busRead_dq]
  exact ⟨rfl, rfl, rfl, rfl⟩

theorem busWrite_sameConstants {a : Addr} {v : Byte} {s t : State} (h : busWrite a v s = .ok t) : SameConstants s t :=
  ⟨busWrite_platform h, busWrite_undoc h, busWrite_irqLine h, busWrite_observer h, busWrite_dq_constants h,
    busWrite_cart h⟩

/-- Everything a step is made of keeps the constants that a state `s` has. -/
theorem sameConstants_kept (s : State) : Kept (SameConstants s) where
  read := fun a t h => h.trans (busRead_sameConstants a t)
  write := fun _ _ _ _ hw h => h.trans (busWrite_sameConstants hw)
  regs := fun _ _ _ _ _ _ _ h => h
  seq := fun _ _ _ _ h => h
  fresh := fun _ h => h
  nmi := fun _ h => h
  reset := fun _ h => h

/-! ## The requests -/

/-- `t` has no NMI or reset pending that `s` has not. -/
def NoNewRequest (s t : State) : Prop :=
  (t.nmiPending = true → s.nmiPending = true) ∧ (t.resetPending = true → s.resetPending = true)

/-- Everything a step is made of raises no request: it can only clear a latch (R351, R354, R390). -/
theorem noNewRequest_kept (s : State) : Kept (NoNewRequest s) where
  read := fun a t h => by
    unfold NoNewRequest
    rwa [busRead_nmiPending, busRead_resetPending]
  write := fun _ _ _ _ hw h => by
    unfold NoNewRequest
    rwa [busWrite_nmiPending hw, busWrite_resetPending hw]
  regs := fun _ _ _ _ _ _ _ h => h
  seq := fun _ _ _ _ h => h
  fresh := fun _ h => h
  nmi := fun _ h => ⟨nofun, h.2⟩
  reset := fun _ h => ⟨h.1, nofun⟩

/-! ## How a step halts the block -/

/-- What runs from a boundary halts the block by no decode failure (R361). -/
theorem stepAtBoundary_fault {s : State} {f : Fault} (h : stepAtBoundary s = .fault f) :
    f ≠ .trapWithoutObserver .decodeFailure := by
  unfold stepAtBoundary at h
  split at h
  · exact runRest_fault h
  · unfold runBytes at h
    split at h
    · exact exec_fault (anything_kept.entry _) trivial h
    · cases h

/-- An opcode fetch is a read, so it does not itself halt the block. -/
theorem opcodeCycle_ne_fault (s : State) (f : Fault) : opcodeCycle s ≠ .fault f := by
  unfold opcodeCycle
  dsimp only
  split <;> nofun

/-- The first cycle of a sequence halts the block by no decode failure (R361). -/
theorem firstCycle_fault {s : State} {f : Fault} (h : firstCycle s = .fault f) :
    f ≠ .trapWithoutObserver .decodeFailure := by
  unfold firstCycle at h
  split at h
  · exact runCycle_fault h
  · exact absurd h (opcodeCycle_ne_fault s f)

/-- The end of a step adds no halt by a decode failure: the trap it settles is an invalid read (R362, R363). -/
theorem settle_ne_decodeFailure {o : Out} (h : ∀ f, o = .fault f → f ≠ .trapWithoutObserver .decodeFailure) :
    settle o ≠ .fault (.trapWithoutObserver .decodeFailure) := by
  intro hs
  rcases settle_eq_fault hs with ho | hf
  · exact h _ ho rfl
  · cases hf

theorem step_ne_decodeFailure (s : State) : step s ≠ .fault (.trapWithoutObserver .decodeFailure) := by
  unfold step
  split
  · nofun
  · exact settle_ne_decodeFailure fun _ => runRest_fault
  · exact settle_ne_decodeFailure fun _ => stepAtBoundary_fault

theorem clockStep_ne_decodeFailure (s : State) : clockStep s ≠ .fault (.trapWithoutObserver .decodeFailure) := by
  unfold clockStep
  split
  · nofun
  · exact settle_ne_decodeFailure fun _ => runCycle_fault
  · exact settle_ne_decodeFailure fun _ => firstCycle_fault

/-- Settles O57: the constants, the absence of new requests and the absence of decode failures among the events are each
kept by everything a step is made of, and each way a step can halt has a reason other than a decode failure. -/
theorem stepKeepsConstants : Obligations.StepKeepsConstants := by
  unfold Obligations.StepKeepsConstants
  refine ⟨fun s => ⟨step_ne_decodeFailure s, clockStep_ne_decodeFailure s⟩, fun s t ht hs => ?_, fun s t ht => ?_⟩
  · rcases ht with ht | ht
    · exact noDecodeFailure_kept.step hs ht
    · exact noDecodeFailure_kept.clockStep hs ht
  · obtain ⟨hplatform, hundoc, hirq, hobserver, ⟨hdepth, hcapacity, hdests, hnext⟩, hcart⟩ :=
      (sameConstants_kept s).step (.refl s) ht
    obtain ⟨hnmi, hreset⟩ := (noNewRequest_kept s).step ⟨id, id⟩ ht
    exact ⟨hplatform, hundoc, hirq, hobserver, hdepth, hcapacity, hdests, hnext, hcart, hnmi, hreset⟩

end Sys2Proof.Machine
end

section
/-! Which registers and flags each instruction may write (R20 to R24, R26): one frame for all of them. That a state agrees
with the first one outside a list of parts is kept by every bus access; an instruction's table keeps it for a list of
parts that each have the instruction's opcode among their writers. -/

namespace Sys2Proof.Machine

open Sys2Proof.Spec

/-- What an instruction may write: a register (R20 to R24), or a flag of the status (R26), of which `N` and `Z` have the
same writers. -/
inductive Part where
  | A
  | X
  | Y
  | S
  | PC
  | NZ
  | V
  | D
  | I
  | C
  deriving DecidableEq

/-- The opcodes that may write a part (R20 to R24, R26). -/
def Part.writers : Part → List Byte
  | .A => writesA
  | .X => writesX
  | .Y => writesY
  | .S => writesS
  | .PC => writesPC
  | .NZ => writesNZ
  | .V => writesV
  | .D => writesD
  | .I => writesI
  | .C => writesC

/-- A part of `t` is as in `s`. -/
def Part.Same (s t : State) : Part → Prop
  | .A => t.A = s.A
  | .X => t.X = s.X
  | .Y => t.Y = s.Y
  | .S => t.S = s.S
  | .PC => t.PC = s.PC
  | .NZ => t.P.N = s.P.N ∧ t.P.Z = s.P.Z
  | .V => t.P.V = s.P.V
  | .D => t.P.D = s.P.D
  | .I => t.P.I = s.P.I
  | .C => t.P.C = s.P.C

/-- The registers and flags of a state, without the rest of it. -/
structure Registers where
  A  : Byte
  X  : Byte
  Y  : Byte
  S  : Byte
  PC : Addr
  P  : Flags

/-- The registers and flags of a state with the listed parts blanked out. -/
def blank (ps : List Part) (s : State) : Registers :=
  { A := bif ps.contains .A then 0#8 else s.A
    X := bif ps.contains .X then 0#8 else s.X
    Y := bif ps.contains .Y then 0#8 else s.Y
    S := bif ps.contains .S then 0#8 else s.S
    PC := bif ps.contains .PC then 0#16 else s.PC
    P := { N := bif ps.contains .NZ then false else s.P.N
           V := bif ps.contains .V then false else s.P.V
           D := bif ps.contains .D then false else s.P.D
           I := bif ps.contains .I then false else s.P.I
           Z := bif ps.contains .NZ then false else s.P.Z
           C := bif ps.contains .C then false else s.P.C } }

/-- `t` agrees with `s` on every register and flag but the listed parts. -/
def SameOutside (ps : List Part) (s t : State) : Prop := blank ps t = blank ps s

/-- A part that is not listed is the same. -/
theorem SameOutside.same {ps : List Part} {s t : State} (h : SameOutside ps s t) {p : Part} (hp : p ∉ ps) :
    p.Same s t := by
  replace hp : ps.contains p = false := by simpa using hp
  unfold SameOutside blank at h
  injection h with hA hX hY hS hPC hP
  injection hP with hN hV hD hI hZ hC
  cases p with
  | A => rwa [hp] at hA
  | X => rwa [hp] at hX
  | Y => rwa [hp] at hY
  | S => rwa [hp] at hS
  | PC => rwa [hp] at hPC
  | NZ => rw [hp] at hN hZ; exact ⟨hN, hZ⟩
  | V => rwa [hp] at hV
  | D => rwa [hp] at hD
  | I => rwa [hp] at hI
  | C => rwa [hp] at hC

/-- A bus read changes no register and no flag. -/
theorem sameOutside_read (ps : List Part) (s : State) : BusReadKeeps (SameOutside ps s) := by
  intro a t h
  unfold SameOutside blank at h ⊢
  simpa using h

/-- A bus write changes no register and no flag. -/
theorem sameOutside_write (ps : List Part) (s : State) : BusWriteKeeps (SameOutside ps s) := by
  intro a v t u hw h
  unfold SameOutside blank
  rw [busWrite_A hw, busWrite_X hw, busWrite_Y hw, busWrite_S hw, busWrite_PC hw, busWrite_P hw]
  exact h

/-- `ARR` writes the same parts in both its forms (R283). -/
theorem opArr_sameOutside (s : State) : ReadKeeps (SameOutside [.A, .NZ, .V, .C] s) opArr := by
  intro m t h
  unfold opArr
  split <;> exact h

/-- The table of `i` writes nothing but parts of some list, each with the opcode of `i` among its writers. -/
def WritesListed (i : Instr) : Prop :=
  ∃ ps : List Part, ps.all (fun p => p.writers.contains (opcode i)) = true ∧
    ∀ s, (instrEntry i).Keeps (SameOutside ps s)

/-- The opcode byte that the writers are asked for is the table's own. -/
theorem writesListed_of_table {i : Instr} {p : Prog} (ps : List Part) (hp : (instrEntry i).prog? = some p)
    (hir : opcode i = p.ir) (hps : ps.all (fun part => part.writers.contains p.ir) = true)
    (h : ∀ s, BusReadKeeps (SameOutside ps s) → BusWriteKeeps (SameOutside ps s) → p.Keeps (SameOutside ps s)) :
    WritesListed i := by
  have hk := fun s => h s (sameOutside_read ps s) (sameOutside_write ps s)
  refine ⟨ps, hir ▸ hps, fun s => ?_⟩
  cases he : instrEntry i with
  | documented p' => rw [he] at hp; cases hp; exact hk s
  | annex p' => rw [he] at hp; cases hp; exact hk s
  | unstable => trivial

/-- The cases are the classes of R117 and R131 to R133, then the instructions with tables of their own, each by what it
writes. -/
theorem writesListed (i : Instr) : WritesListed i := by
  cases i with
  | oraIzx | oraZp | oraImm | oraAbs | oraIzy | oraZpx | oraAby | oraAbx | andIzx | andZp | andImm | andAbs
  | andIzy | andZpx | andAby | andAbx | eorIzx | eorZp | eorImm | eorAbs | eorIzy | eorZpx | eorAby | eorAbx
  | ldaIzx | ldaZp | ldaImm | ldaAbs | ldaIzy | ldaZpx | ldaAby | ldaAbx =>
    exact writesListed_of_table [.A, .NZ] rfl rfl (by decide) fun _ hr _ => readProg_keeps hr _ _ fun _ _ h => h
  | nopZp04 | nopAbs0C | nopZpx14 | nopAbx1C | nopZpx34 | nopAbx3C | nopZp44 | nopZpx54 | nopAbx5C | nopZp64
  | nopZpx74 | nopAbx7C | nopImm80 | nopImm82 | nopImm89 | nopImmC2 | nopZpxD4 | nopAbxDC | nopImmE2 | nopZpxF4
  | nopAbxFC =>
    exact writesListed_of_table [] rfl rfl (by decide) fun _ hr _ => readProg_keeps hr _ _ fun _ _ h => h
  | ancImm0B | ancImm2B | alrImm =>
    exact writesListed_of_table [.A, .NZ, .C] rfl rfl (by decide) fun _ hr _ => readProg_keeps hr _ _ fun _ _ h => h
  | bitZp | bitAbs =>
    exact writesListed_of_table [.NZ, .V] rfl rfl (by decide) fun _ hr _ => readProg_keeps hr _ _ fun _ _ h => h
  | adcIzx | adcZp | adcImm | adcAbs | adcIzy | adcZpx | adcAby | adcAbx | sbcIzx | sbcZp | sbcImm | usbcImm
  | sbcAbs | sbcIzy | sbcZpx | sbcAby | sbcAbx =>
    exact writesListed_of_table [.A, .NZ, .V, .C] rfl rfl (by decide) fun _ hr _ =>
      readProg_keeps hr _ _ fun _ _ h => h
  | arrImm =>
    exact writesListed_of_table [.A, .NZ, .V, .C] rfl rfl (by decide) fun _ hr _ =>
      readProg_keeps hr _ _ (opArr_sameOutside _)
  | ldyImm | ldyZp | ldyAbs | ldyZpx | ldyAbx =>
    exact writesListed_of_table [.Y, .NZ] rfl rfl (by decide) fun _ hr _ => readProg_keeps hr _ _ fun _ _ h => h
  | ldxImm | ldxZp | ldxAbs | ldxZpy | ldxAby =>
    exact writesListed_of_table [.X, .NZ] rfl rfl (by decide) fun _ hr _ => readProg_keeps hr _ _ fun _ _ h => h
  | laxIzx | laxZp | laxAbs | laxIzy | laxZpy | laxAby =>
    exact writesListed_of_table [.A, .X, .NZ] rfl rfl (by decide) fun _ hr _ => readProg_keeps hr _ _ fun _ _ h => h
  | cpyImm | cmpIzx | cpyZp | cmpZp | cmpImm | cpyAbs | cmpAbs | cmpIzy | cmpZpx | cmpAby | cmpAbx | cpxImm | cpxZp
  | cpxAbs =>
    exact writesListed_of_table [.NZ, .C] rfl rfl (by decide) fun _ hr _ => readProg_keeps hr _ _ fun _ _ h => h
  | sbxImm =>
    exact writesListed_of_table [.X, .NZ, .C] rfl rfl (by decide) fun _ hr _ => readProg_keeps hr _ _ fun _ _ h => h
  | staIzx | saxIzx | styZp | staZp | stxZp | saxZp | styAbs | staAbs | stxAbs | saxAbs | staIzy | styZpx | staZpx
  | stxZpy | saxZpy | staAby | staAbx =>
    exact writesListed_of_table [] rfl rfl (by decide) fun _ hr hw => writeProg_keeps hr hw _ _ _
  | sloIzx | sloZp | sloAbs | sloIzy | sloZpx | sloAby | sloAbx | rlaIzx | rlaZp | rlaAbs | rlaIzy | rlaZpx
  | rlaAby | rlaAbx | sreIzx | sreZp | sreAbs | sreIzy | sreZpx | sreAby | sreAbx =>
    exact writesListed_of_table [.A, .NZ, .C] rfl rfl (by decide) fun _ hr hw =>
      rmwProg_keeps hr hw _ _ fun _ _ h => h
  | aslZp | aslAbs | aslZpx | aslAbx | rolZp | rolAbs | rolZpx | rolAbx | lsrZp | lsrAbs | lsrZpx | lsrAbx | rorZp
  | rorAbs | rorZpx | rorAbx | dcpIzx | dcpZp | dcpAbs | dcpIzy | dcpZpx | dcpAby | dcpAbx =>
    exact writesListed_of_table [.NZ, .C] rfl rfl (by decide) fun _ hr hw => rmwProg_keeps hr hw _ _ fun _ _ h => h
  | rraIzx | rraZp | rraAbs | rraIzy | rraZpx | rraAby | rraAbx | iscIzx | iscZp | iscAbs | iscIzy | iscZpx
  | iscAby | iscAbx =>
    exact writesListed_of_table [.A, .NZ, .V, .C] rfl rfl (by decide) fun _ hr hw =>
      rmwProg_keeps hr hw _ _ fun _ _ h => h
  | decZp | decAbs | decZpx | decAbx | incZp | incAbs | incZpx | incAbx =>
    exact writesListed_of_table [.NZ] rfl rfl (by decide) fun _ hr hw => rmwProg_keeps hr hw _ _ fun _ _ h => h
  | aslAcc | rolAcc | lsrAcc | rorAcc =>
    exact writesListed_of_table [.A, .NZ, .C] rfl rfl (by decide) fun _ hr _ => impliedProg_keeps hr _ fun _ h => h
  | clc | sec =>
    exact writesListed_of_table [.C] rfl rfl (by decide) fun _ hr _ => impliedProg_keeps hr _ fun _ h => h
  | nopImp1A | nopImp3A | nopImp5A | nopImp7A | nopImpDA | nop | nopImpFA =>
    exact writesListed_of_table [] rfl rfl (by decide) fun _ hr _ => impliedProg_keeps hr _ fun _ h => h
  | cli | sei =>
    exact writesListed_of_table [.I] rfl rfl (by decide) fun _ hr _ => impliedProg_keeps hr _ fun _ h => h
  | dey | tay | iny =>
    exact writesListed_of_table [.Y, .NZ] rfl rfl (by decide) fun _ hr _ => impliedProg_keeps hr _ fun _ h => h
  | txa | tya =>
    exact writesListed_of_table [.A, .NZ] rfl rfl (by decide) fun _ hr _ => impliedProg_keeps hr _ fun _ h => h
  | txs =>
    exact writesListed_of_table [.S] rfl rfl (by decide) fun _ hr _ => impliedProg_keeps hr _ fun _ h => h
  | tax | tsx | dex | inx =>
    exact writesListed_of_table [.X, .NZ] rfl rfl (by decide) fun _ hr _ => impliedProg_keeps hr _ fun _ h => h
  | clv =>
    exact writesListed_of_table [.V] rfl rfl (by decide) fun _ hr _ => impliedProg_keeps hr _ fun _ h => h
  | cld | sed =>
    exact writesListed_of_table [.D] rfl rfl (by decide) fun _ hr _ => impliedProg_keeps hr _ fun _ h => h
  | bpl | bmi | bvc | bvs | bcc | bcs | bne | beq =>
    exact writesListed_of_table [.PC] rfl rfl (by decide) fun _ hr _ => branchProg_keeps hr (fun _ _ h => h) _ _
  | jmpAbs =>
    exact writesListed_of_table [.PC] rfl rfl (by decide) fun _ _ _ => ⟨fun _ _ h => h, cyclesKeep_nil⟩
  | jmpInd =>
    exact writesListed_of_table [.PC] rfl rfl (by decide) fun _ hr _ =>
      ⟨goOn_keeps, jumpIndirectCycles_keep hr fun _ _ h => h⟩
  | jsr =>
    exact writesListed_of_table [.S, .PC] rfl rfl (by decide) fun _ hr hw =>
      ⟨goOn_keeps, callCycles_keep hr hw (fun _ _ h => h) fun _ _ h => h⟩
  | rts =>
    exact writesListed_of_table [.S, .PC] rfl rfl (by decide) fun _ hr _ =>
      ⟨goOn_keeps, returnSubCycles_keep hr (fun _ _ h => h) fun _ _ h => h⟩
  | php | pha =>
    exact writesListed_of_table [.S] rfl rfl (by decide) fun _ hr hw =>
      ⟨goOn_keeps, pushTable_keeps hr hw (fun _ _ h => h) _⟩
  | plp =>
    exact writesListed_of_table [.S, .NZ, .V, .D, .I, .C] rfl rfl (by decide) fun _ hr _ =>
      ⟨goOn_keeps, pullTable_keeps hr (fun _ _ h => h) fun _ _ h => h⟩
  | pla =>
    exact writesListed_of_table [.A, .S, .NZ] rfl rfl (by decide) fun _ hr _ =>
      ⟨goOn_keeps, pullTable_keeps hr (fun _ _ h => h) fun _ _ h => h⟩
  | brk =>
    exact writesListed_of_table [.S, .PC, .I] rfl rfl (by decide) fun _ hr hw =>
      ⟨goOn_keeps, cyclesKeep_cons (dummyPC_keeps hr fun _ _ h => h)
        (entryCycles_keep hr hw (fun _ _ h => h) (fun _ h => h) (fun _ _ h => h) _ _)⟩
  | rti =>
    exact writesListed_of_table [.S, .PC, .NZ, .V, .D, .I, .C] rfl rfl (by decide) fun _ hr _ =>
      ⟨goOn_keeps, returnCycles_keep hr (fun _ _ h => h) (fun _ _ h => h) fun _ _ h => h⟩
  | jam02 | jam12 | jam22 | jam32 | jam42 | jam52 | jam62 | jam72 | jam92 | jamB2 | jamD2 | jamF2 =>
    exact writesListed_of_table [] rfl rfl (by decide) fun _ hr _ =>
      ⟨goOn_keeps, cyclesKeep_cons (dummyPC_keeps hr goOn_keeps) cyclesKeep_nil⟩
  | aneImm | shaIzy | tasAby | shyAbx | shxAby | shaAby | lxaImm | lasAby =>
    exact ⟨[], rfl, fun _ => trivial⟩

/-- An instruction that answers a next state leaves every part that its opcode is no writer of (R20 to R24, R26). -/
theorem exec_part_same {i : Instr} {s t : State} (h : exec i s = .next t) (p : Part) (hp : opcode i ∉ p.writers) :
    p.Same s t := by
  obtain ⟨ps, hps, hk⟩ := writesListed i
  have hst : SameOutside ps s t := exec_keeps (hk s) (fun _ _ _ h => h) rfl h
  refine hst.same fun hmem => hp ?_
  exact List.contains_iff_mem.mp (List.all_eq_true.mp hps p hmem)

/-- Settles O58: each register is one part of the state that an instruction may write. -/
theorem registersWritten : Obligations.RegistersWritten := by
  unfold Obligations.RegistersWritten
  intro i s t h
  exact ⟨exec_part_same h .A, exec_part_same h .X, exec_part_same h .Y, exec_part_same h .S, exec_part_same h .PC⟩

/-- Settles O59: so is each flag, `N` and `Z` together. -/
theorem flagsWritten : Obligations.FlagsWritten := by
  unfold Obligations.FlagsWritten
  intro i s t h
  exact ⟨exec_part_same h .NZ, exec_part_same h .V, exec_part_same h .D, exec_part_same h .I, exec_part_same h .C⟩

end Sys2Proof.Machine
end

section
/-! The pushed status bit by bit, and what packing and unpacking undo (R27, R28). -/

namespace Sys2Proof.Machine

open Sys2Proof.Spec

/-- A flag as a number has only bit 0. -/
@[simp] theorem getElem_bit (b : Bool) {i : Nat} (hi : i < 8) : (bit b)[i] = (decide (i = 0) && b) := by
  cases b with
  | false => simp [bit]
  | true => simp [bit]

/-- The bits of the pushed status, from bit 0 up (R27). -/
@[simp] theorem getElem_pack (b : Bool) (p : Flags) {i : Nat} (hi : i < 8) :
    (pack b p)[i] = [p.C, p.Z, p.I, p.D, b, true, p.V, p.N][i] := by
  rw [← BitVec.getLsbD_eq_getElem]
  unfold pack
  simp only [BitVec.getLsbD_append, BitVec.getLsbD_ofBool]
  interval_cases i <;> simp

/-- The pushed status as a sum of shifted flags (R27). -/
theorem pack_eq_bits (b : Bool) (p : Flags) :
    pack b p = (bit p.N <<< 7) ||| (bit p.V <<< 6) ||| (bit true <<< 5) ||| (bit b <<< 4) ||| (bit p.D <<< 3) |||
      (bit p.I <<< 2) ||| (bit p.Z <<< 1) ||| bit p.C := by
  refine BitVec.eq_of_getElem_eq fun i hi => ?_
  interval_cases i <;> simp

/-- Pulling what was pushed restores the flags, whatever bit 4 was (R28). -/
theorem unpack_pack (b : Bool) (p : Flags) : unpack (pack b p) = p := by
  simp [unpack]

/-- Pushing what was pulled replaces bits 5 and 4 (R28). -/
theorem pack_unpack (b : Bool) (v : Byte) : pack b (unpack v) = (v &&& 0xCF#8) ||| 0x20#8 ||| (bit b <<< 4) := by
  refine BitVec.eq_of_getElem_eq fun i hi => ?_
  interval_cases i <;> simp [unpack]

/-- Settles O34, by the bits of the pushed byte. -/
theorem statusByte : Obligations.StatusByte := by
  unfold Obligations.StatusByte
  exact ⟨pack_eq_bits, fun _ => rfl, unpack_pack, pack_unpack⟩

end Sys2Proof.Machine
end

section
/-! The delay queue's invariants when it is new and after `execute` (R43, R301, R306), and the state's after reset and at
power-on. -/

namespace Sys2Proof.Machine

/-- A new queue meets the invariants of R43: every slot is empty and nothing is pending (R301). -/
theorem DelayQueue.new_inv {n k : Nat} {dests : List Nat} {q : DelayQueue} (h : DelayQueue.new n k dests = some q) :
    q.Inv ∧ q.next = 0 ∧ q.whereIs = [] := by
  unfold DelayQueue.new at h
  split at h
  · cases h
  · rename_i hnk
    obtain ⟨hn, hk⟩ := not_or.mp hnk
    cases h
    refine ⟨⟨List.length_replicate, Nat.pos_of_ne_zero hn, Nat.pos_of_ne_zero hk, rfl, fun i hi => ?_, nofun⟩, rfl, rfl⟩
    unfold DelayQueue.slot
    rw [List.getD_replicate _ (List.mem_range.mp hi)]
    exact ⟨Nat.zero_le _, List.nodup_nil, nofun⟩

/-- `new` fails exactly for a depth or a capacity of 0 (R301). -/
theorem DelayQueue.new_eq_none (n k : Nat) (dests : List Nat) : DelayQueue.new n k dests = none ↔ n = 0 ∨ k = 0 := by
  unfold DelayQueue.new
  split
  · next h => exact iff_of_true rfl h
  · next h => exact iff_of_false nofun h

/-- The slot in force is one of the list. -/
theorem DelayQueue.Inv.next_lt_length {q : DelayQueue} (h : q.Inv) : q.next < q.slots.length := by
  obtain ⟨hlen, hnext, _⟩ := h
  exact hlen ▸ hnext

/-- `where` after an `execute`: no destination of the slot in force is pending, and the others stay (R306). -/
theorem DelayQueue.where_execute (q : DelayQueue) (d : Nat) :
    tableGet q.execute.2.whereIs d = if d ∈ (q.slot q.next).map Prod.fst then none else tableGet q.whereIs d :=
  tableGet_foldl_erase _ _ _

/-- An `execute` keeps the invariants: the slot in force loses its pairs, and `where` loses exactly their
destinations (R43, R306). -/
theorem DelayQueue.Inv.execute {q : DelayQueue} (h : q.Inv) : q.execute.2.Inv := by
  obtain ⟨hlen, hnext, hcap, hrise, hslots, hwhere⟩ := id h
  have hslot := DelayQueue.slot_execute h.next_lt_length
  refine ⟨by simpa [DelayQueue.execute] using hlen, Nat.mod_lt _ (Nat.zero_lt_of_lt hnext), hcap,
    tableRising_foldl_erase _ hrise, fun i hi => ?_, fun p hp => ?_⟩
  · rw [hslot i]
    split
    · exact ⟨Nat.zero_le _, List.nodup_nil, nofun⟩
    · next hne =>
      obtain ⟨hroom, hnodup, hpairs⟩ := hslots i hi
      refine ⟨hroom, hnodup, fun p hp => ⟨(hpairs p hp).1, ?_⟩⟩
      have hkept : p.1 ∉ (q.slot q.next).map Prod.fst := fun hmem => by
        obtain ⟨p', hp', heq⟩ := List.mem_map.mp hmem
        have hi := h.where_eq hnext hp'
        rw [heq, (hpairs p hp).2] at hi
        exact hne (Option.some.inj hi)
      rw [DelayQueue.where_execute, if_neg hkept]
      exact (hpairs p hp).2
  · obtain ⟨hold, hgone⟩ := mem_foldl_erase hp
    obtain ⟨hlt, hmem⟩ := hwhere p hold
    have hne : p.2 ≠ q.next := fun heq => hgone (heq ▸ hmem)
    rw [hslot p.2, if_neg hne]
    exact ⟨hlt, hmem⟩

/-- Settles O53: `new`, `push` and `execute` each keep the invariants by a lemma of their own, and what `execute` answers
is read off its slots and its `where`. -/
theorem queueInvariant : Obligations.QueueInvariant := by
  unfold Obligations.QueueInvariant
  refine ⟨fun n k dests => ⟨DelayQueue.new_eq_none n k dests, fun q => DelayQueue.new_inv⟩,
    fun q t d v delay h ht => h.push ht, fun q h => ⟨h.execute, rfl, ?_, rfl, fun p hp => ?_⟩⟩
  · rw [DelayQueue.slot_execute h.next_lt_length, if_pos rfl]
  · rw [DelayQueue.where_execute]
    exact if_pos (List.mem_map_of_mem hp)

/-- The queue of both initial states is a new one. -/
theorem DelayQueue.initial_inv : DelayQueue.initial.Inv := (DelayQueue.new_inv (n := 1) (k := 1) (dests := []) rfl).1

/-- Settles O56: memory, the cartridge slot and the table of device states are empty, and the queue is new. -/
theorem resetHasInvariant : Obligations.ResetHasInvariant := by
  unfold Obligations.ResetHasInvariant
  exact ⟨⟨rfl, DelayQueue.initial_inv, rfl, rfl, rfl⟩, rfl, DelayQueue.initial_inv, rfl, rfl, rfl⟩

end Sys2Proof.Machine
end

section
/-! A fatal halt is final (R48, R363, R391). -/

namespace Sys2Proof.Machine

variable {s : State}

theorem step_of_fatal (h : s.phase = .fatal) : step s = .next { s with boundary := false } := by
  unfold step
  rw [h]

theorem clockStep_of_fatal (h : s.phase = .fatal) : clockStep s = .next { s with boundary := false } := by
  unfold clockStep
  rw [h]

theorem tick_of_fatal (chip : Nat → List PushRequest) (h : s.phase = .fatal) :
    tick chip s = .next ([], { s with boundary := false }) := if_pos h

theorem pushQueue_of_fatal (p : PushRequest) (h : s.phase = .fatal) : pushQueue p s = .ok s := if_pos h

theorem executeQueue_of_fatal (h : s.phase = .fatal) : executeQueue s = ([], s) := if_pos h

theorem resetInput_of_fatal (h : s.phase = .fatal) : (resetInput s).phase = .fatal := by
  unfold resetInput
  rw [h]

/-- Settles O8: each operation asks for the phase first, and each input but `reset()` leaves it alone. -/
theorem fatalHalt : Obligations.FatalHalt := by
  unfold Obligations.FatalHalt
  exact ⟨fun s _ => haltMark_phase s, fun s h =>
    ⟨step_of_fatal h, clockStep_of_fatal h, fun chip => tick_of_fatal chip h, fun p => pushQueue_of_fatal p h,
      executeQueue_of_fatal h, resetInput_of_fatal h, (nmiEdge_phase s).trans h, fun b => (setIrq_phase b s).trans h⟩⟩

end Sys2Proof.Machine
end

section
/-! Every step keeps the state's invariant (R64, R43 to R46): the premises of the induction over a step in
Laws/StepKeeps.lean. -/

namespace Sys2Proof.Machine

/-- Everything a step is made of keeps the invariant of the data. -/
theorem dataInv_kept : Kept State.DataInv where
  read := fun a _ h => busRead_dataInv a h
  write := fun _ _ _ _ ht h => busWrite_dataInv ht h
  regs := fun _ _ _ _ _ _ _ h => h
  seq := fun _ _ _ _ h => h
  fresh := fun _ h => h
  nmi := fun _ h => h
  reset := fun _ h => h

/-- Settles O55: a step keeps the invariant of the data, and leaves no halt under way. -/
theorem stepKeepsInvariant : Obligations.StepKeepsInvariant := by
  unfold Obligations.StepKeepsInvariant
  intro s t h ht
  obtain ⟨hdata, hhalt⟩ := inv_iff.mp h
  exact inv_iff.mpr ⟨dataInv_kept.step hdata ht, step_halt hhalt ht⟩

end Sys2Proof.Machine
end

section
/-! The devices on the bus (R63 to R65, R71, R76, R331, R360, R362): what a read and a write of each kind of device come
to, and `peek` and `poke` (R62, R326). -/

namespace Sys2Proof.Machine

open Sys2Proof.Spec

variable {s t : State} {a : Addr} {v : Byte}

/-! ## RAM -/

/-- `ADDR_MASK` makes addresses that it cannot tell apart the same cell (R65). -/
theorem ramCell_of_same_masked {b : Addr} (h : b &&& s.platform.addrMask = a &&& s.platform.addrMask) :
    s.ramCell b = s.ramCell a := by
  unfold State.ramCell State.route State.busAddr
  rw [h]

/-- A byte written to RAM is read back at every address of its cell (R64). -/
theorem busRead_after_busWrite {b : Addr} {n : Nat} (ht : busWrite a v s = .ok t) (ha : s.ramCell a = some n)
    (hb : s.ramCell b = some n) : busRead b t = (v, { t with trace := t.trace ++ [Access.rd b v] }) :=
  busRead_listed ((busWrite_ramCell ht b).trans hb) (busWrite_read_same ht ha)

/-! ## The cartridge and the chip -/

/-- A read that reaches the cartridge is the cartridge's own (R71, R331). -/
theorem busRead_cartridge {c : Cartridge} (hr : s.route a = .cart) (hc : s.cart = some c) :
    busRead a s = ((c.read (s.busAddr a)).1, { s with
      cart := some (c.read (s.busAddr a)).2, trace := s.trace ++ [Access.rd a (c.read (s.busAddr a)).1] }) := by
  simp only [busRead, State.deviceRead, hr, hc]

theorem deviceWrite_cartridge {c c' : Cartridge} (hr : s.route a = .cart) (hc : s.cart = some c)
    (hw : c.write (s.busAddr a) v = some c') : s.deviceWrite a v = .ok { s with cart := some c' } := by
  simp only [State.deviceWrite, hr, hc, hw]

/-- A write to a delayed register is a push (R76). -/
theorem deviceWrite_delayed {r : DelayedReg} (hr : s.route a = .chip) (hd : s.delayedAt a = some r) :
    s.deviceWrite a v = (s.dq.push r.dest v r.delay).map fun q => { s with dq := q } := by
  simp only [State.deviceWrite, hr, hd]
  cases s.dq.push r.dest v r.delay <;> rfl

/-! ## A device outside the block -/

theorem deviceState_setDevice_self (id n : Nat) (s : State) : (s.setDevice id n).deviceState id = n := by
  simp [State.deviceState, State.setDevice]

theorem deviceState_setDevice_other {id k : Nat} (n : Nat) (s : State) (h : k ≠ id) :
    (s.setDevice id n).deviceState k = s.deviceState k := by
  simp [State.deviceState, State.setDevice, tableGet_set_other _ _ h]

/-- A read that a device outside the block answers leaves its new state (R63, R71). -/
theorem busRead_device {id n : Nat} (hr : s.route a = .other id)
    (hafter : (Config.deviceRead id (s.deviceState id) (s.busAddr a)).after = some n) :
    busRead a s = ((Config.deviceRead id (s.deviceState id) (s.busAddr a)).value, { s.setDevice id n with
      trace := s.trace ++ [Access.rd a (Config.deviceRead id (s.deviceState id) (s.busAddr a)).value] }) := by
  simp only [busRead, State.deviceRead, hr, hafter, State.setDevice]

/-- A read that a device outside the block traps leaves the trap (R360, R362). -/
theorem busRead_device_trap {id : Nat} (hr : s.route a = .other id)
    (hafter : (Config.deviceRead id (s.deviceState id) (s.busAddr a)).after = none) :
    busRead a s = ((Config.deviceRead id (s.deviceState id) (s.busAddr a)).value, { readTrap s with
      trace := (readTrap s).trace ++ [Access.rd a (Config.deviceRead id (s.deviceState id) (s.busAddr a)).value] }) := by
  simp only [busRead, State.deviceRead, hr, hafter]

theorem readTrap_observed (h : s.observer = true) :
    readTrap s = { s with traps := s.traps ++ [trapEvent .invalidRead .bus] } := if_pos h

theorem readTrap_unobserved (h : s.observer = false) : readTrap s = { s with halt := true } :=
  if_neg (by simp [h])

/-- A halt under way at the end of a step is the fatal one (R362, R363). -/
theorem settle_of_halt (h : s.halt = true) : settle (.next s) = .fault (.trapWithoutObserver .invalidRead) := if_pos h

theorem deviceWrite_device {id n : Nat} (hr : s.route a = .other id)
    (hw : Config.deviceWrite id (s.deviceState id) (s.busAddr a) v = some n) :
    s.deviceWrite a v = .ok (s.setDevice id n) := by
  simp only [State.deviceWrite, hr, hw]

theorem deviceWrite_device_trap {id : Nat} (hr : s.route a = .other id)
    (hw : Config.deviceWrite id (s.deviceState id) (s.busAddr a) v = none) :
    s.deviceWrite a v = raiseTrap .invalidWrite .bus s := by
  simp only [State.deviceWrite, hr, hw]

/-- A write that a device outside the block traps (R360, R362, R366). -/
theorem busWrite_device_trap {id : Nat} (hr : s.route a = .other id)
    (hw : Config.deviceWrite id (s.deviceState id) (s.busAddr a) v = none) :
    busWrite a v s = if s.observer = true then
        .ok { s with traps := s.traps ++ [trapEvent .invalidWrite .bus], trace := s.trace ++ [Access.wr a v] }
      else .error (s.firstFault (.trapWithoutObserver .invalidWrite)) := by
  have htrap : State.deviceWrite { s with trace := s.trace ++ [Access.wr a v] } a v =
      raiseTrap .invalidWrite .bus { s with trace := s.trace ++ [Access.wr a v] } := deviceWrite_device_trap hr hw
  unfold busWrite
  rw [htrap]
  unfold raiseTrap
  cases s.observer <;> rfl

/-- The byte read from a device outside the block is its answer, trapped or not. -/
theorem busRead_device_value {id : Nat} (hr : s.route a = .other id) :
    (busRead a s).1 = (Config.deviceRead id (s.deviceState id) (s.busAddr a)).value := by
  cases hafter : (Config.deviceRead id (s.deviceState id) (s.busAddr a)).after with
  | some n => rw [busRead_device hr hafter]
  | none => rw [busRead_device_trap hr hafter]

/-- Settles O44: each kind of device has its read and its write above. -/
theorem ramBus : Obligations.RamBus := by
  unfold Obligations.RamBus
  refine ⟨fun _ _ _ => ramCell_of_same_masked, fun a v s n ha => ?ram, fun a s ha hnone => ?unlisted,
    fun a s c hr hc => ⟨busRead_cartridge hr hc, fun v c' hw => busWrite_ok.mpr (deviceWrite_cartridge hr hc hw)⟩,
    fun a v s r hr hd => ?chip, fun a s id hr => ⟨busRead_device_value hr, ?read, fun v => ?write⟩⟩
  case ram =>
    have ht := busWrite_ram v ha
    exact ⟨_, ht, rfl, fun b hb => busRead_after_busWrite ht ha hb,
      fun k hk => busWrite_read_other ht fun h => hk (Option.some.inj (h.symm.trans ha)), rfl⟩
  case unlisted =>
    obtain ⟨n, hn⟩ := Option.ne_none_iff_exists'.mp ha
    refine busRead_unlisted hn ?_
    simpa [ramByte, hn] using hnone
  case chip =>
    have hpush : State.deviceWrite { s with trace := s.trace ++ [Access.wr a v] } a v = _ := deviceWrite_delayed hr hd
    refine ⟨fun q hq => busWrite_ok.mpr ?_, fun f hf hhalt => (busWrite_device a v hhalt).trans ?_⟩
    · rw [hpush, hq]; rfl
    · rw [hpush, hf]; rfl
  case read =>
    cases hafter : (Config.deviceRead id (s.deviceState id) (s.busAddr a)).after with
    | some n =>
      rw [busRead_device hr hafter]
      exact ⟨deviceState_setDevice_self id n s, rfl, rfl, fun k hk => deviceState_setDevice_other n s hk⟩
    | none =>
      rw [busRead_device_trap hr hafter]
      cases hobs : s.observer with
      | true => rw [readTrap_observed hobs]; exact ⟨rfl, fun _ => ⟨rfl, rfl⟩, nofun⟩
      | false => rw [readTrap_unobserved hobs]; exact ⟨rfl, nofun, fun _ => settle_of_halt rfl⟩
  case write =>
    cases hw : Config.deviceWrite id (s.deviceState id) (s.busAddr a) v with
    | some n =>
      exact ⟨_, busWrite_ok.mpr (deviceWrite_device hr hw), deviceState_setDevice_self id n _, rfl,
        fun k hk => deviceState_setDevice_other n _ hk⟩
    | none => exact busWrite_device_trap hr hw

/-! ## The host's side -/

/-- `poke` of an address that reaches RAM stores to its cell (R62). -/
theorem poke_ram {n : Nat} (v : Byte) (h : s.ramCell a = some n) :
    poke a v s = { s with mem := Memory.write s.mem n v } := by
  simp only [poke, h]

/-- `poke` of any other address does nothing (R326). -/
theorem poke_elsewhere (v : Byte) (h : s.ramCell a = none) : poke a v s = s := by
  simp only [poke, h]

/-- The byte that `poke` stores to RAM is there. -/
theorem ramByte_poke {n : Nat} (v : Byte) (h : s.ramCell a = some n) : ramByte (poke a v s) a = some v := by
  have hcell : State.ramCell { s with mem := Memory.write s.mem n v } a = some n := h
  rw [poke_ram v h, ramByte, hcell]
  exact Memory.read_write_self s.mem n v

/-- Settles O46: a read records the access after the device has answered, so that `peek` is its byte. -/
theorem peekPoke : Obligations.PeekPoke := by
  unfold Obligations.PeekPoke
  exact fun a v s => ⟨rfl, fun n h => ⟨poke_ram v h, ramByte_poke v h⟩, poke_elsewhere v⟩

end Sys2Proof.Machine
end

section
/-! One clock cycle (R66, R112): each cycle of a table makes one bus access, does not look at `phase` or at the boundary
signal, and never ends a halt that is under way. It holds of every cycle of every sequence, by the classes of
Operands.lean. -/

namespace Sys2Proof.Machine

/-! ## The sequencer's own fields -/

/-- The state with the phase and the boundary signal given. -/
def State.mark (ph : Phase) (b : Bool) (s : State) : State := { s with phase := ph, boundary := b }

/-- A cycle's result with the phase and the boundary signal given. -/
def Micro.mark (ph : Phase) (b : Bool) : Micro → Micro
  | .more q s => .more q (s.mark ph b)
  | .done s => .done (s.mark ph b)
  | .halt f => .halt f

/-- A sequence is left with its own phase and boundary signal, whatever they were before. -/
theorem close_mark (ir : SeqKind) (n : Nat) (ph : Phase) (b : Bool) (x : Micro) :
    close ir n (x.mark ph b) = close ir n x := by
  cases x <;> rfl

/-- A bus read depends on neither. -/
theorem busRead_mark (a : Addr) (ph : Phase) (b : Bool) (s : State) :
    busRead a (s.mark ph b) = ((busRead a s).1, (busRead a s).2.mark ph b) := by
  have hroute : (s.mark ph b).route a = s.route a := rfl
  unfold busRead State.deviceRead
  rw [hroute]
  cases s.route a with
  | ram base mirror => rfl
  | cart =>
    have hcart : (s.mark ph b).cart = s.cart := rfl
    dsimp only
    rw [hcart]
    cases s.cart <;> rfl
  | chip => rfl
  | absent => rfl
  | other id =>
    have hanswer : Config.deviceRead id ((s.mark ph b).deviceState id) ((s.mark ph b).busAddr a) =
      Config.deviceRead id (s.deviceState id) (s.busAddr a) := rfl
    dsimp only
    rw [hanswer]
    cases (Config.deviceRead id (s.deviceState id) (s.busAddr a)).after with
    | some n => rfl
    | none =>
      unfold readTrap State.mark
      cases s.observer <;> rfl

theorem raiseTrap_mark (reason : TrapReason) (source : TrapSource) (ph : Phase) (b : Bool) (s : State) :
    raiseTrap reason source (s.mark ph b) = (raiseTrap reason source s).map (State.mark ph b) := by
  unfold raiseTrap State.mark
  cases s.observer <;> rfl

theorem deviceWrite_mark (a : Addr) (v : Byte) (ph : Phase) (b : Bool) (s : State) :
    (s.mark ph b).deviceWrite a v = (s.deviceWrite a v).map (State.mark ph b) := by
  have hroute : (s.mark ph b).route a = s.route a := rfl
  unfold State.deviceWrite
  rw [hroute]
  cases s.route a with
  | ram base mirror => rfl
  | cart =>
    have hcart : (s.mark ph b).cart = s.cart := rfl
    dsimp only
    rw [hcart]
    cases s.cart with
    | none => rfl
    | some c =>
      have hwrite : c.write ((s.mark ph b).busAddr a) v = c.write (s.busAddr a) v := rfl
      dsimp only
      rw [hwrite]
      cases c.write (s.busAddr a) v with
      | some c' => rfl
      | none => exact raiseTrap_mark ..
  | chip =>
    have hdelayed : (s.mark ph b).delayedAt a = s.delayedAt a := rfl
    dsimp only
    rw [hdelayed]
    cases s.delayedAt a with
    | none => rfl
    | some r =>
      have hdq : (s.mark ph b).dq = s.dq := rfl
      dsimp only
      rw [hdq]
      cases s.dq.push r.dest v r.delay <;> rfl
  | absent => rfl
  | other id =>
    have hanswer : Config.deviceWrite id ((s.mark ph b).deviceState id) ((s.mark ph b).busAddr a) v =
      Config.deviceWrite id (s.deviceState id) (s.busAddr a) v := rfl
    dsimp only
    rw [hanswer]
    cases Config.deviceWrite id (s.deviceState id) (s.busAddr a) v with
    | some n => rfl
    | none => exact raiseTrap_mark ..

/-- Neither does a bus write. -/
theorem busWrite_mark (a : Addr) (v : Byte) (ph : Phase) (b : Bool) (s : State) :
    busWrite a v (s.mark ph b) = (busWrite a v s).map (State.mark ph b) := by
  have hdevice : State.deviceWrite { s.mark ph b with trace := (s.mark ph b).trace ++ [Access.wr a v] } a v = _ :=
    deviceWrite_mark a v ph b { s with trace := s.trace ++ [Access.wr a v] }
  have hfault : (s.mark ph b).firstFault = s.firstFault := rfl
  unfold busWrite
  rw [hdevice, hfault]
  cases State.deviceWrite { s with trace := s.trace ++ [Access.wr a v] } a v <;> rfl

/-- No read ends a halt that is under way. -/
theorem busRead_halt_of_halt (a : Addr) {s : State} (h : s.halt = true) : (busRead a s).2.halt = true := by
  unfold busRead State.deviceRead
  dsimp only
  cases s.route a with
  | ram base mirror => exact h
  | cart => cases s.cart <;> exact h
  | chip => exact h
  | absent => exact h
  | other id =>
    dsimp only
    split
    · exact h
    · unfold readTrap
      split
      · exact h
      · rfl

/-- A write that faults under a halt leaves the halt's reason (R366). -/
theorem busWrite_error_of_halt {a : Addr} {v : Byte} {s : State} {f : Fault} (h : s.halt = true)
    (hf : busWrite a v s = .error f) : f = .trapWithoutObserver .invalidRead := by
  unfold busWrite at hf
  split at hf
  · cases hf
  · cases hf
    exact if_pos h

/-! ## What a cycle does -/

/-- From `s` to `t`, `n` accesses have been made, and a halt that was under way still is. -/
def State.Adds (n : Nat) (s t : State) : Prop :=
  (∃ l, l.length = n ∧ t.trace = s.trace ++ l) ∧ (s.halt = true → t.halt = true)

/-- A cycle's result from `s` has made `n` accesses, and carries on a halt that was under way. -/
def Micro.Adds (n : Nat) (s : State) : Micro → Prop
  | .more _ t => s.Adds n t
  | .done t => s.Adds n t
  | .halt f => s.halt = true → f = .trapWithoutObserver .invalidRead

/-- A cycle makes `n` accesses, carries on a halt that is under way, and does not look at the phase or at the boundary
signal. -/
def Cycle.Makes (n : Nat) (c : Cycle) : Prop :=
  ∀ q s, (c q s).Adds n s ∧ ∀ ph b, c q (s.mark ph b) = (c q s).mark ph b

/-- A function on states makes no access, touches no halt, and does not look at the phase or at the boundary signal. -/
def Silent (f : State → State) : Prop :=
  ∀ s, (f s).trace = s.trace ∧ (f s).halt = s.halt ∧ ∀ ph b, f (s.mark ph b) = (f s).mark ph b

/-- A read's operation is silent, whatever the byte. -/
def ReadSilent (op : ReadOp) : Prop := ∀ m, Silent (op m)

/-- A read-modify-write operation is silent, and its new value does not depend on the phase or on the boundary signal. -/
def RmwSilent (f : RmwOp) : Prop :=
  ∀ m, Silent (fun s => (f m s).2) ∧ ∀ s ph b, (f m (s.mark ph b)).1 = (f m s).1

theorem State.adds_zero {s t : State} (ht : t.trace = s.trace) (hh : t.halt = s.halt) : s.Adds 0 t :=
  ⟨⟨[], rfl, by rw [ht, List.append_nil]⟩, fun h => hh.trans h⟩

theorem State.Adds.one {s t : State} (h : s.Adds 1 t) : ∃ a, t.trace = s.trace ++ [a] := by
  obtain ⟨⟨l, hl, ht⟩, _⟩ := h
  obtain ⟨a, rfl⟩ := List.length_eq_one_iff.mp hl
  exact ⟨a, ht⟩

theorem Micro.adds_more {q : Latches} {s t : State} (ht : t.trace = s.trace := by rfl)
    (hh : t.halt = s.halt := by rfl) : (Micro.more q t).Adds 0 s := State.adds_zero ht hh

theorem Micro.adds_done {s t : State} (ht : t.trace = s.trace := by rfl) (hh : t.halt = s.halt := by rfl) :
    (Micro.done t).Adds 0 s := State.adds_zero ht hh

/-- An access before what makes none. -/
theorem Micro.Adds.after_access {s t : State} {a : Access} {x : Micro} (hx : x.Adds 0 t)
    (ht : t.trace = s.trace ++ [a]) (hh : s.halt = true → t.halt = true) : x.Adds 1 s := by
  have key : ∀ {u}, t.Adds 0 u → s.Adds 1 u := fun ⟨⟨l, hl, hu⟩, hhalt⟩ => by
    rw [List.length_eq_zero_iff.mp hl, List.append_nil] at hu
    exact ⟨⟨[a], rfl, hu.trans ht⟩, fun h => hhalt (hh h)⟩
  cases x with
  | more q u => exact key hx
  | done u => exact key hx
  | halt f => exact fun h => hx (hh h)

/-- A cycle whose access is a read; `s` is the state before it. -/
theorem rd_makes {a : Latches → State → Addr} {k : Latches → State → Byte → State → Micro}
    (ha : ∀ q s ph b, a q (s.mark ph b) = a q s := by intros; rfl)
    (hk : ∀ q s v t, (k q s v t).Adds 0 t ∧ ∀ ph b, k q (s.mark ph b) v (t.mark ph b) = (k q s v t).mark ph b) :
    Cycle.Makes 1 fun q s => rd (a q s) s (k q s) := by
  intro q s
  refine ⟨(hk q s _ _).1.after_access (busRead_trace _ _) (busRead_halt_of_halt _), fun ph b => ?_⟩
  dsimp only [rd]
  rw [ha, busRead_mark]
  exact (hk q s _ _).2 ph b

/-- A cycle whose access is a write. -/
theorem wr_makes {a : Latches → State → Addr} {v : Latches → State → Byte} {k : Cycle}
    (ha : ∀ q s ph b, a q (s.mark ph b) = a q s := by intros; rfl)
    (hv : ∀ q s ph b, v q (s.mark ph b) = v q s := by intros; rfl) (hk : Cycle.Makes 0 k) :
    Cycle.Makes 1 fun q s => wr (a q s) (v q s) s (k q) := by
  intro q s
  dsimp only [wr]
  constructor
  · cases ht : busWrite (a q s) (v q s) s with
    | ok t => exact (hk q t).1.after_access (busWrite_trace ht) fun h => (busWrite_halt ht).trans h
    | error f => exact fun h => busWrite_error_of_halt h ht
  · intro ph b
    rw [ha, hv, busWrite_mark]
    cases busWrite (a q s) (v q s) s with
    | ok t => exact (hk q t).2 ph b
    | error f => rfl

theorem goOn_makes : Cycle.Makes 0 goOn := fun _ _ => ⟨Micro.adds_more, fun _ _ => rfl⟩

theorem dummyPC_makes {k : Cycle} (hk : Cycle.Makes 0 k) : Cycle.Makes 1 (dummyPC k) :=
  rd_makes (hk := fun q _ _ t => hk q t)

theorem pushCycle_makes {v : State → Byte} {k : Cycle} (hk : Cycle.Makes 0 k)
    (hv : ∀ s ph b, v (s.mark ph b) = v s := by intros; rfl) : Cycle.Makes 1 (pushCycle v k) :=
  wr_makes (v := fun _ => v) (hv := fun _ => hv) (k := fun q s => k q { s with S := s.S - 1 })
    (hk := fun q s => hk q { s with S := s.S - 1 })

theorem pullCycle_makes {k : Byte → Cycle} (hk : ∀ v, Cycle.Makes 0 (k v)) : Cycle.Makes 1 (pullCycle k) :=
  rd_makes (hk := fun q _ v t => hk v q { t with S := t.S + 1 })

theorem stackCycle_makes {k : Byte → Cycle} (hk : ∀ v, Cycle.Makes 0 (k v)) : Cycle.Makes 1 (stackCycle k) :=
  rd_makes (hk := fun q _ v t => hk v q t)

/-! ## Addressing modes and operand classes -/

/-- Every cycle of a list makes one access. -/
def CyclesMake (cs : List Cycle) : Prop := ∀ c ∈ cs, Cycle.Makes 1 c

theorem cyclesMake_nil : CyclesMake [] := nofun

theorem cyclesMake_cons {c : Cycle} {cs : List Cycle} (hc : Cycle.Makes 1 c) (hcs : CyclesMake cs) :
    CyclesMake (c :: cs) := List.forall_mem_cons.mpr ⟨hc, hcs⟩

theorem cyclesMake_append {cs ds : List Cycle} (hc : CyclesMake cs) (hd : CyclesMake ds) : CyclesMake (cs ++ ds) :=
  List.forall_mem_append.mpr ⟨hc, hd⟩

/-- A table's operand fetch ends with no access of its own, and each cycle after it makes one; a table with no operand
has nothing to do before its cycles. -/
structure Prog.Clocked (p : Prog) : Prop where
  implied : p.fetch = 0 → p.fin = goOn
  fin : Cycle.Makes 0 p.fin
  tail : CyclesMake p.tail

theorem latch_makes (md : Mode) : Cycle.Makes 0 md.latch := by
  intro q s
  cases md <;> exact ⟨Micro.adds_more, fun _ _ => rfl⟩

theorem done_makes {f : State → State} (hf : Silent f) : Cycle.Makes 0 fun _ s => .done (f s) := by
  intro q s
  obtain ⟨htrace, hhalt, hmark⟩ := hf s
  exact ⟨Micro.adds_done htrace hhalt, fun ph b => congrArg Micro.done (hmark ph b)⟩

theorem zeroPageIndexCycle_makes {i : State → Byte} (hi : ∀ s ph b, i (s.mark ph b) = i s := by intros; rfl) :
    Cycle.Makes 1 (zeroPageIndexCycle i) :=
  rd_makes (hk := fun _ _ _ t => ⟨Micro.adds_more, fun ph b => by rw [hi]; rfl⟩)

theorem uncorrectedCycle_makes {i : State → Byte} (hi : ∀ s ph b, i (s.mark ph b) = i s := by intros; rfl) :
    Cycle.Makes 1 (uncorrectedCycle i) :=
  rd_makes (ha := fun _ _ _ _ => by rw [hi]) (hk := fun _ _ _ _ => ⟨Micro.adds_more, fun _ _ => rfl⟩)

theorem pointerXCycles_make : CyclesMake pointerXCycles := by
  refine cyclesMake_cons ?_ (cyclesMake_cons ?_ (cyclesMake_cons ?_ cyclesMake_nil)) <;>
    exact rd_makes (hk := fun _ _ _ _ => ⟨Micro.adds_more, fun _ _ => rfl⟩)

theorem pointerYCycles_make : CyclesMake pointerYCycles := by
  refine cyclesMake_cons ?_ (cyclesMake_cons ?_ cyclesMake_nil) <;>
    exact rd_makes (hk := fun _ _ _ _ => ⟨Micro.adds_more, fun _ _ => rfl⟩)

theorem addressCycles_make (md : Mode) : CyclesMake md.addressCycles := by
  cases md with
  | imm => exact cyclesMake_nil
  | zp => exact cyclesMake_nil
  | zpx => exact cyclesMake_cons zeroPageIndexCycle_makes cyclesMake_nil
  | zpy => exact cyclesMake_cons zeroPageIndexCycle_makes cyclesMake_nil
  | abs => exact cyclesMake_nil
  | abx => exact cyclesMake_cons uncorrectedCycle_makes cyclesMake_nil
  | aby => exact cyclesMake_cons uncorrectedCycle_makes cyclesMake_nil
  | izx => exact pointerXCycles_make
  | izy => exact cyclesMake_append pointerYCycles_make (cyclesMake_cons uncorrectedCycle_makes cyclesMake_nil)

theorem readCycle_makes {op : ReadOp} (ho : ReadSilent op) : Cycle.Makes 1 (readCycle op) :=
  rd_makes (hk := fun q _ v t => done_makes (ho v) q t)

theorem correctableCycle_makes {i : State → Byte} {op : ReadOp} (ho : ReadSilent op)
    (hi : ∀ s ph b, i (s.mark ph b) = i s := by intros; rfl) : Cycle.Makes 1 (correctableCycle i op) := by
  refine rd_makes (ha := fun _ _ _ _ => by rw [hi]) (hk := fun q s v t => ?_)
  cases hcross : q.cross with
  | true => exact ⟨Micro.adds_more, fun _ _ => rfl⟩
  | false => exact done_makes (ho v) q t

theorem readCycles_make (md : Mode) {op : ReadOp} (ho : ReadSilent op) : CyclesMake (md.readCycles op) := by
  have last : CyclesMake [readCycle op] := cyclesMake_cons (readCycle_makes ho) cyclesMake_nil
  cases md with
  | imm => exact cyclesMake_nil
  | zp => exact last
  | zpx => exact cyclesMake_cons zeroPageIndexCycle_makes last
  | zpy => exact cyclesMake_cons zeroPageIndexCycle_makes last
  | abs => exact last
  | abx => exact cyclesMake_cons (correctableCycle_makes ho) last
  | aby => exact cyclesMake_cons (correctableCycle_makes ho) last
  | izx => exact cyclesMake_append pointerXCycles_make last
  | izy => exact cyclesMake_append pointerYCycles_make (cyclesMake_cons (correctableCycle_makes ho) last)

theorem readProg_clocked (ir : Byte) (md : Mode) {op : ReadOp} (ho : ReadSilent op) : (readProg ir md op).Clocked where
  implied := fun h => by cases md <;> cases h
  fin := fun q s => by
    show Micro.Adds 0 s (md.readFin op q s) ∧ ∀ ph b, md.readFin op q (s.mark ph b) = (md.readFin op q s).mark ph b
    unfold Mode.readFin
    split
    · exact done_makes (ho q.lo) q s
    · exact latch_makes md q s
  tail := readCycles_make md ho

theorem writeProg_clocked (ir : Byte) (md : Mode) {reg : State → Byte}
    (hreg : ∀ s ph b, reg (s.mark ph b) = reg s := by intros; rfl) : (writeProg ir md reg).Clocked where
  implied := fun h => by cases md <;> cases h
  fin := latch_makes md
  tail := cyclesMake_append (addressCycles_make md)
    (cyclesMake_cons (wr_makes (hv := fun _ => hreg) (hk := done_makes (f := id) fun _ => ⟨rfl, rfl, fun _ _ => rfl⟩))
      cyclesMake_nil)

theorem rmwCycles_make {f : RmwOp} (hf : RmwSilent f) : CyclesMake (rmwCycles f) :=
  cyclesMake_cons (rd_makes (hk := fun _ _ _ _ => ⟨Micro.adds_more, fun _ _ => rfl⟩))
    (cyclesMake_cons (wr_makes (hk := goOn_makes))
      (cyclesMake_cons
        (wr_makes (hv := fun q s ph b => (hf q.m).2 s ph b) (k := fun q s => .done (f q.m s).2)
          (hk := fun q s => done_makes (hf q.m).1 q s))
        cyclesMake_nil))

theorem rmwProg_clocked (ir : Byte) (md : Mode) {f : RmwOp} (hf : RmwSilent f) : (rmwProg ir md f).Clocked where
  implied := fun h => by cases md <;> cases h
  fin := latch_makes md
  tail := cyclesMake_append (addressCycles_make md) (rmwCycles_make hf)

/-- A one-byte instruction with a cycle table of its own (R135). -/
theorem oneByteProg_clocked (ir : Byte) {cs : List Cycle} (hcs : CyclesMake cs) : (oneByteProg ir cs).Clocked :=
  ⟨fun _ => rfl, goOn_makes, hcs⟩

theorem impliedProg_clocked (ir : Byte) {op : State → State} (ho : Silent op) : (impliedProg ir op).Clocked :=
  oneByteProg_clocked ir (cyclesMake_cons (dummyPC_makes (done_makes ho)) cyclesMake_nil)

theorem branchProg_clocked (ir : Byte) {cond : Flags → Bool} : (branchProg ir cond).Clocked where
  implied := nofun
  fin := fun q s => by
    have hP : ∀ ph b, (s.mark ph b).P = s.P := fun _ _ => rfl
    simp only [branchProg, hP]
    cases cond s.P with
    | true => exact ⟨Micro.adds_more, fun _ _ => rfl⟩
    | false => exact ⟨Micro.adds_done, fun _ _ => rfl⟩
  tail := by
    refine cyclesMake_cons (rd_makes (hk := fun q s v t => ?_)) (cyclesMake_cons
      (rd_makes (hk := fun _ _ _ _ => ⟨Micro.adds_done, fun _ _ => rfl⟩)) cyclesMake_nil)
    have hPC : ∀ ph b, (s.mark ph b).PC = s.PC := fun _ _ => rfl
    simp only [hPC]
    split
    · exact ⟨Micro.adds_done, fun _ _ => rfl⟩
    · exact ⟨Micro.adds_more, fun _ _ => rfl⟩

/-! ## The shared sequences -/

theorem vectorCycles_make (vec : Addr) : CyclesMake (vectorCycles vec) :=
  cyclesMake_cons (rd_makes (hk := fun _ _ _ _ => ⟨Micro.adds_more, fun _ _ => rfl⟩))
    (cyclesMake_cons (rd_makes (hk := fun _ _ _ _ => ⟨Micro.adds_done, fun _ _ => rfl⟩)) cyclesMake_nil)

theorem entryCycles_make (b : Bool) (vec : Addr) : CyclesMake (entryCycles b vec) := by
  refine cyclesMake_append (cyclesMake_cons ?_ (cyclesMake_cons ?_ (cyclesMake_cons ?_ cyclesMake_nil)))
    (vectorCycles_make vec) <;>
    exact pushCycle_makes goOn_makes

theorem returnCycles_make : CyclesMake returnCycles :=
  cyclesMake_cons (dummyPC_makes goOn_makes) (cyclesMake_cons (pullCycle_makes fun _ => goOn_makes)
    (cyclesMake_cons (pullCycle_makes fun _ _ _ => ⟨Micro.adds_more, fun _ _ => rfl⟩)
      (cyclesMake_cons (pullCycle_makes fun _ _ _ => ⟨Micro.adds_more, fun _ _ => rfl⟩)
        (cyclesMake_cons (stackCycle_makes fun _ _ _ => ⟨Micro.adds_done, fun _ _ => rfl⟩) cyclesMake_nil))))

theorem returnSubCycles_make : CyclesMake returnSubCycles :=
  cyclesMake_cons (dummyPC_makes goOn_makes) (cyclesMake_cons (pullCycle_makes fun _ => goOn_makes)
    (cyclesMake_cons (pullCycle_makes fun _ _ _ => ⟨Micro.adds_more, fun _ _ => rfl⟩)
      (cyclesMake_cons (stackCycle_makes fun _ _ _ => ⟨Micro.adds_more, fun _ _ => rfl⟩)
        (cyclesMake_cons (dummyPC_makes fun _ _ => ⟨Micro.adds_done, fun _ _ => rfl⟩) cyclesMake_nil))))

theorem callCycles_make : CyclesMake callCycles :=
  cyclesMake_cons (stackCycle_makes fun _ => goOn_makes) (cyclesMake_cons (pushCycle_makes goOn_makes)
    (cyclesMake_cons (pushCycle_makes goOn_makes)
      (cyclesMake_cons (rd_makes (hk := fun _ _ _ _ => ⟨Micro.adds_done, fun _ _ => rfl⟩)) cyclesMake_nil)))

theorem jumpIndirectCycles_make : CyclesMake jumpIndirectCycles :=
  cyclesMake_cons (rd_makes (hk := fun _ _ _ _ => ⟨Micro.adds_more, fun _ _ => rfl⟩))
    (cyclesMake_cons (rd_makes (hk := fun _ _ _ _ => ⟨Micro.adds_done, fun _ _ => rfl⟩)) cyclesMake_nil)

theorem pushTable_makes {v : State → Byte} (hv : ∀ s ph b, v (s.mark ph b) = v s := by intros; rfl) :
    CyclesMake (pushTable v) :=
  cyclesMake_cons (dummyPC_makes goOn_makes)
    (cyclesMake_cons (pushCycle_makes (fun _ _ => ⟨Micro.adds_done, fun _ _ => rfl⟩) hv) cyclesMake_nil)

theorem pullTable_makes {op : ReadOp} (ho : ReadSilent op) : CyclesMake (pullTable op) :=
  cyclesMake_cons (dummyPC_makes goOn_makes) (cyclesMake_cons (pullCycle_makes fun _ => goOn_makes)
    (cyclesMake_cons (stackCycle_makes fun v => done_makes (ho v)) cyclesMake_nil))

theorem interruptCycles_make (vec : Addr) {first : State → State}
    (hfirst : Silent first) : CyclesMake (interruptCycles vec first) := by
  refine cyclesMake_append (cyclesMake_cons (dummyPC_makes fun q s => ?_)
    (cyclesMake_cons (dummyPC_makes goOn_makes) cyclesMake_nil)) (entryCycles_make false vec)
  obtain ⟨htrace, hhalt, hmark⟩ := hfirst s
  exact ⟨Micro.adds_more htrace hhalt, fun ph b => congrArg (Micro.more q) (hmark ph b)⟩

theorem resetCycles_make : CyclesMake resetCycles := by
  have stack : Cycle.Makes 1 resetStackCycle := rd_makes (hk := fun _ _ _ _ => ⟨Micro.adds_more, fun _ _ => rfl⟩)
  exact cyclesMake_append
    (cyclesMake_cons (dummyPC_makes fun _ _ => ⟨Micro.adds_more, fun _ _ => rfl⟩)
      (cyclesMake_cons (dummyPC_makes goOn_makes)
        (cyclesMake_cons stack (cyclesMake_cons stack (cyclesMake_cons stack cyclesMake_nil)))))
    (vectorCycles_make resetVector)

end Sys2Proof.Machine
end

section
/-! Each entry of the opcode table, and each pseudo-instruction, is made of such cycles. -/

namespace Sys2Proof.Machine

/-- The table of an entry, if it has one, is made of cycles that make one access each. -/
def OpEntry.Clocked : OpEntry → Prop
  | .documented p => p.Clocked
  | .annex p => p.Clocked
  | .unstable => True

/-- The cases are the classes of R117 and R131 to R133, then the instructions with tables of their own. -/
theorem instrEntry_clocked (i : Instr) : (instrEntry i).Clocked := by
  cases i with
  | oraIzx | oraZp | oraImm | oraAbs | oraIzy | oraZpx | oraAby | oraAbx | andIzx | andZp | andImm | andAbs
  | andIzy | andZpx | andAby | andAbx | eorIzx | eorZp | eorImm | eorAbs | eorIzy | eorZpx | eorAby | eorAbx
  | ldaIzx | ldaZp | ldaImm | ldaAbs | ldaIzy | ldaZpx | ldaAby | ldaAbx
  | nopZp04 | nopAbs0C | nopZpx14 | nopAbx1C | nopZpx34 | nopAbx3C | nopZp44 | nopZpx54 | nopAbx5C | nopZp64
  | nopZpx74 | nopAbx7C | nopImm80 | nopImm82 | nopImm89 | nopImmC2 | nopZpxD4 | nopAbxDC | nopImmE2 | nopZpxF4
  | nopAbxFC | ancImm0B | ancImm2B | alrImm | bitZp | bitAbs | arrImm
  | adcIzx | adcZp | adcImm | adcAbs | adcIzy | adcZpx | adcAby | adcAbx | sbcIzx | sbcZp | sbcImm | usbcImm
  | sbcAbs | sbcIzy | sbcZpx | sbcAby | sbcAbx | ldyImm | ldyZp | ldyAbs | ldyZpx | ldyAbx
  | ldxImm | ldxZp | ldxAbs | ldxZpy | ldxAby | laxIzx | laxZp | laxAbs | laxIzy | laxZpy | laxAby
  | cpyImm | cmpIzx | cpyZp | cmpZp | cmpImm | cpyAbs | cmpAbs | cmpIzy | cmpZpx | cmpAby | cmpAbx | cpxImm | cpxZp
  | cpxAbs | sbxImm =>
    exact readProg_clocked _ _ fun _ _ => ⟨rfl, rfl, fun _ _ => rfl⟩
  | staIzx | saxIzx | styZp | staZp | stxZp | saxZp | styAbs | staAbs | stxAbs | saxAbs | staIzy | styZpx | staZpx
  | stxZpy | saxZpy | staAby | staAbx =>
    exact writeProg_clocked _ _
  | sloIzx | sloZp | sloAbs | sloIzy | sloZpx | sloAby | sloAbx | rlaIzx | rlaZp | rlaAbs | rlaIzy | rlaZpx
  | rlaAby | rlaAbx | sreIzx | sreZp | sreAbs | sreIzy | sreZpx | sreAby | sreAbx
  | aslZp | aslAbs | aslZpx | aslAbx | rolZp | rolAbs | rolZpx | rolAbx | lsrZp | lsrAbs | lsrZpx | lsrAbx | rorZp
  | rorAbs | rorZpx | rorAbx | dcpIzx | dcpZp | dcpAbs | dcpIzy | dcpZpx | dcpAby | dcpAbx
  | rraIzx | rraZp | rraAbs | rraIzy | rraZpx | rraAby | rraAbx | iscIzx | iscZp | iscAbs | iscIzy | iscZpx
  | iscAby | iscAbx | decZp | decAbs | decZpx | decAbx | incZp | incAbs | incZpx | incAbx =>
    exact rmwProg_clocked _ _ fun _ => ⟨fun _ => ⟨rfl, rfl, fun _ _ => rfl⟩, fun _ _ _ => rfl⟩
  | aslAcc | rolAcc | lsrAcc | rorAcc | clc | sec | nopImp1A | nopImp3A | nopImp5A | nopImp7A | nopImpDA | nop
  | nopImpFA | cli | sei | dey | tay | iny | txa | tya | txs | tax | tsx | dex | inx | clv | cld | sed =>
    exact impliedProg_clocked _ fun _ => ⟨rfl, rfl, fun _ _ => rfl⟩
  | bpl | bmi | bvc | bvs | bcc | bcs | bne | beq => exact branchProg_clocked _
  | jmpAbs => exact ⟨nofun, fun _ _ => ⟨Micro.adds_done, fun _ _ => rfl⟩, cyclesMake_nil⟩
  | jmpInd => exact ⟨nofun, goOn_makes, jumpIndirectCycles_make⟩
  | jsr => exact ⟨nofun, goOn_makes, callCycles_make⟩
  | rts => exact oneByteProg_clocked _ returnSubCycles_make
  | rti => exact oneByteProg_clocked _ returnCycles_make
  | php | pha => exact oneByteProg_clocked _ pushTable_makes
  | plp | pla => exact oneByteProg_clocked _ (pullTable_makes fun _ _ => ⟨rfl, rfl, fun _ _ => rfl⟩)
  | brk =>
    exact oneByteProg_clocked _ (cyclesMake_cons (dummyPC_makes fun _ _ => ⟨Micro.adds_more, fun _ _ => rfl⟩)
      (entryCycles_make true irqVector))
  | jam02 | jam12 | jam22 | jam32 | jam42 | jam52 | jam62 | jam72 | jam92 | jamB2 | jamD2 | jamF2 =>
    exact oneByteProg_clocked _ (cyclesMake_cons (dummyPC_makes goOn_makes) cyclesMake_nil)
  | aneImm | shaIzy | tasAby | shyAbx | shxAby | shaAby | lxaImm | lasAby => trivial

/-- Every opcode byte is that of some instruction. -/
theorem opEntry_clocked (op : Byte) : (opEntry op).Clocked := by
  obtain ⟨i, rfl⟩ := exists_opByte op
  rw [opEntry_opByte]
  exact instrEntry_clocked i

/-- A fetch of an operand byte is a bus read, whatever it does beside. -/
theorem fetchLoCycle_makes {k : Cycle} (hk : Cycle.Makes 0 k) : Cycle.Makes 1 (fetchLoCycle k) :=
  rd_makes (a := fun _ s => s.PC) (k := fun q _ v t => k { q with lo := v } { t with PC := t.PC + 1 })
    (hk := fun q _ v t => hk { q with lo := v } { t with PC := t.PC + 1 })

theorem fetchHiCycle_makes {k : Cycle} (hk : Cycle.Makes 0 k) : Cycle.Makes 1 (fetchHiCycle k) :=
  rd_makes (a := fun _ s => s.PC) (k := fun q _ v t => k { q with hi := v } { t with PC := t.PC + 1 })
    (hk := fun q _ v t => hk { q with hi := v } { t with PC := t.PC + 1 })

theorem Prog.Clocked.cycles {p : Prog} (h : p.Clocked) : CyclesMake p.cycles := by
  unfold Prog.cycles
  split
  · exact h.tail
  · exact cyclesMake_cons (fetchLoCycle_makes h.fin) h.tail
  · exact cyclesMake_cons (fetchLoCycle_makes goOn_makes) (cyclesMake_cons (fetchHiCycle_makes h.fin) h.tail)

theorem opCycles_make (op : Byte) : CyclesMake (opCycles op) := by
  have h := opEntry_clocked op
  unfold opCycles
  cases he : opEntry op with
  | documented p => rw [he] at h; exact h.cycles
  | annex p => rw [he] at h; exact h.cycles
  | unstable => exact cyclesMake_nil

/-- Every cycle of a sequence in progress makes one access (R66). -/
theorem rest_makes (sq : Seq) : CyclesMake sq.rest := by
  have hdrop : ∀ {cs : List Cycle}, CyclesMake cs → ∀ n, CyclesMake (cs.drop n) :=
    fun h n c hc => h c (List.mem_of_mem_drop hc)
  unfold Seq.rest cyclesFrom
  split
  · exact hdrop (opCycles_make _) _
  · exact hdrop (interruptCycles_make _ fun _ => ⟨rfl, rfl, fun _ _ => rfl⟩) _
  · refine hdrop (interruptCycles_make _ ?_) _
    exact fun _ => ⟨rfl, rfl, fun _ _ => rfl⟩
  · exact hdrop resetCycles_make _

/-! ## One access -/

/-- A sequence left for a next state has the accesses of the cycle that left it. -/
theorem close_trace {ir : SeqKind} {n : Nat} {x : Micro} {s t : State} (hx : x.Adds 1 s) (ht : close ir n x = .next t) :
    ∃ a, t.trace = s.trace ++ [a] := by
  cases x with
  | more q u => cases ht; exact State.Adds.one hx
  | done u => cases ht; exact State.Adds.one hx
  | halt f => cases ht

/-- A cycle of a sequence adds one access to the record, or, in a stuck state, begins it again with one. -/
theorem runCycle_trace {sq : Seq} {s t : State} (ht : runCycle sq s = .next t) :
    ∃ a, t.trace = s.trace ++ [a] ∨ t.trace = [a] := by
  unfold runCycle at ht
  split at ht
  · next c cs hc =>
    obtain ⟨a, ha⟩ := close_trace (rest_makes sq c (hc ▸ List.mem_cons_self) sq.q { s with phase := .idle }).1 ht
    exact ⟨a, .inl ha⟩
  · cases ht
    exact ⟨_, .inr (busRead_trace _ _)⟩

theorem firstCycle_trace {s t : State} (ht : firstCycle s = .next t) : ∃ a, t.trace = s.trace ++ [a] ∨ t.trace = [a] := by
  unfold firstCycle at ht
  split at ht
  · exact runCycle_trace ht
  · unfold opcodeCycle at ht
    dsimp only at ht
    split at ht <;> cases ht
    exact ⟨_, .inl (busRead_trace s.PC s)⟩

/-- Settles O7: the cycle that a clock step runs makes one access, and a sequence that begins has a new record. -/
theorem oneAccessPerCycle : Obligations.OneAccessPerCycle := by
  unfold Obligations.OneAccessPerCycle
  intro s t hs ht
  unfold clockStep at ht
  split at ht
  · contradiction
  · exact runCycle_trace (settle_next.mp ht).1
  · obtain ⟨a, ha⟩ := firstCycle_trace (settle_next.mp ht).1
    exact ⟨a, .inr (ha.elim id id)⟩

end Sys2Proof.Machine
end

section
/-! What a fetch reads (R90, R91, R95, R115): its bytes decode to an instruction with those bytes, by the forms of the
decoder's table; and running that instruction is running the cycles of its opcode from cycle 2 on (R134). -/

namespace Sys2Proof.Machine

/-! ## The decoder's table -/

/-- The instruction of a form with an operand, of which a one-byte operand is the low byte. -/
def formInstr (x : Addr) : Form → Instr
  | .f1 i => i
  | .f2 mk => mk (loByte x)
  | .f3 mk => mk x

/-- The operand bytes of a form. -/
def formOperands (x : Addr) : Form → List Byte
  | .f1 _ => []
  | .f2 _ => [loByte x]
  | .f3 _ => [loByte x, hiByte x]

set_option maxRecDepth 8000 in
theorem opcodeTable_encode (x : Addr) :
    opcodeTable.map (fun f => encode (formInstr x f)) =
      opcodeTable.map fun f => opByte (formSample f) :: formOperands x f := rfl

set_option maxRecDepth 8000 in
theorem opcodeTable_length (x : Addr) :
    opcodeTable.map (fun f => (formOperands x f).length + 1) =
      opcodeTable.map fun f => opLength (opByte (formSample f)) := rfl

/-- A form's instructions are encoded as its opcode byte and the operand bytes (R91). -/
theorem encode_formInstr {f : Form} (hf : f ∈ opcodeTable) (x : Addr) :
    encode (formInstr x f) = opByte (formSample f) :: formOperands x f :=
  List.map_inj_left.mp (opcodeTable_encode x) f hf

/-- A form has as many operand bytes as its opcode byte decides (R90). -/
theorem formOperands_length {f : Form} (hf : f ∈ opcodeTable) (x : Addr) :
    (formOperands x f).length + 1 = opLength (opByte (formSample f)) :=
  List.map_inj_left.mp (opcodeTable_length x) f hf

/-- The form of an opcode byte. -/
theorem opcodeTable_lookup (op : Byte) :
    ∃ f ∈ opcodeTable, opcodeTable[op.toNat]? = some f ∧ opByte (formSample f) = op := by
  have h : (opcodeTable.map formByte)[op.toNat]? = some op.toNat := by
    rw [opcodeTable_order, List.getElem?_range op.isLt]
  rw [List.getElem?_map, Option.map_eq_some_iff] at h
  obtain ⟨f, hf, hop⟩ := h
  exact ⟨f, List.mem_of_getElem? hf, hf, BitVec.eq_of_toNat_eq hop⟩

/-- Any bytes of the right number are operand bytes of a form. -/
theorem exists_formOperands (f : Form) {operands : List Byte} (h : operands.length = (formOperands 0#16 f).length) :
    ∃ x, formOperands x f = operands := by
  cases f with
  | f1 i => exact ⟨0#16, (List.length_eq_zero_iff.mp h).symm⟩
  | f2 mk =>
    obtain ⟨d, rfl⟩ := List.length_eq_one_iff.mp h
    exact ⟨mkAddr 0#8 d, by simp [formOperands]⟩
  | f3 mk =>
    obtain ⟨lo, hi, rfl⟩ := List.length_eq_two.mp h
    exact ⟨mkAddr hi lo, by simp [formOperands]⟩

theorem complete_formOperands (f : Form) (op : Byte) (x : Addr) :
    f.complete op (formOperands x f) = .ok (formInstr x f, []) := by
  cases f with
  | f1 i => rfl
  | f2 mk => rfl
  | f3 mk => simp [formOperands, formInstr, Form.complete]

/-- A byte string of the length that its opcode byte decides is the encoding of what it decodes to (R90, R91, R95). -/
theorem decode_of_length {op : Byte} {operands : List Byte} (h : operands.length + 1 = opLength op) :
    ∃ i, decode (op :: operands) = .ok (i, []) ∧ encode i = op :: operands := by
  obtain ⟨f, hmem, hf, rfl⟩ := opcodeTable_lookup op
  have hlen := formOperands_length hmem 0#16
  obtain ⟨x, rfl⟩ := exists_formOperands f (operands := operands) (by omega)
  refine ⟨formInstr x f, ?_, encode_formInstr hmem x⟩
  simp only [decode, hf]
  exact complete_formOperands f _ x

/-- An instruction is 1, 2 or 3 bytes long (R90). -/
theorem opLength_bounds (op : Byte) : 1 ≤ opLength op ∧ opLength op ≤ 3 := by
  obtain ⟨f, hmem, _, rfl⟩ := opcodeTable_lookup op
  rw [← formOperands_length hmem 0#16]
  cases f <;> simp [formOperands]

/-! ## The clock step's table -/

/-- The table of an entry, if it has one, names the opcode byte and fetches the operand bytes before the meaning. -/
def OpEntry.fits (op : Byte) (e : OpEntry) : Bool :=
  e.prog?.all fun p => p.ir == op && p.fetch == fetchedOperands op

set_option maxRecDepth 8000 in
theorem opEntry_fits : ∀ op, (opEntry op).fits op = true := by decide

theorem opEntry_table {op : Byte} {p : Prog} (h : (opEntry op).prog? = some p) :
    p.ir = op ∧ p.fetch = fetchedOperands op := by
  have hfits := opEntry_fits op
  unfold OpEntry.fits at hfits
  rw [h] at hfits
  simpa using hfits

theorem opEntry_prog_clocked {op : Byte} {p : Prog} (h : (opEntry op).prog? = some p) : p.Clocked := by
  have hclocked := opEntry_clocked op
  cases he : opEntry op with
  | documented p' => rw [he] at h hclocked; cases h; exact hclocked
  | annex p' => rw [he] at h hclocked; cases h; exact hclocked
  | unstable => rw [he] at h; cases h

theorem opCycles_of_table {op : Byte} {p : Prog} (h : (opEntry op).prog? = some p) : opCycles op = p.cycles := by
  unfold opCycles
  cases he : opEntry op with
  | documented p' => rw [he] at h; cases h; rfl
  | annex p' => rw [he] at h; cases h; rfl
  | unstable => rw [he] at h; cases h

/-! ## The fetch -/

variable {s : State}

/-- A fetch by the number of operand bytes; `JSR` alone has a byte that is not fetched before its meaning (R231). -/
theorem fetchInstr_cases (s : State) :
    let op := fetchByte s
    let lo := fetchByte op.2
    let hi := fetchByte lo.2
    (opLength op.1 = 1 ∧ fetchedOperands op.1 = 0 ∧ fetchInstr s = ([op.1], op.2)) ∨
    (opLength op.1 = 2 ∧ fetchedOperands op.1 = 1 ∧ fetchInstr s = ([op.1, lo.1], lo.2)) ∨
    (opLength op.1 = 3 ∧ fetchedOperands op.1 = 2 ∧ fetchInstr s = ([op.1, lo.1, hi.1], hi.2)) ∨
    (opLength op.1 = 3 ∧ fetchedOperands op.1 = 1 ∧ fetchInstr s = ([op.1, lo.1, peek lo.2.PC lo.2], lo.2)) := by
  intro op lo hi
  by_cases hjsr : op.1 = 0x20#8
  · have hn : fetchedOperands op.1 = 1 := if_pos hjsr
    refine .inr (.inr (.inr ⟨by rw [hjsr]; rfl, hn, ?_⟩))
    simp only [fetchInstr, op, hn, if_pos hjsr, lo]
  · have hn : fetchedOperands op.1 = opLength op.1 - 1 := if_neg hjsr
    obtain ⟨hmin, hmax⟩ := opLength_bounds op.1
    have hlen : opLength op.1 = 1 ∨ opLength op.1 = 2 ∨ opLength op.1 = 3 := by omega
    rcases hlen with hlen | hlen | hlen
    · have hn : fetchedOperands op.1 = 0 := by rw [hn, hlen]
      exact .inl ⟨hlen, hn, by simp only [fetchInstr, op, hn]⟩
    · have hn : fetchedOperands op.1 = 1 := by rw [hn, hlen]
      exact .inr (.inl ⟨hlen, hn, by simp only [fetchInstr, op, hn, if_neg hjsr, lo]⟩)
    · have hn : fetchedOperands op.1 = 2 := by rw [hn, hlen]
      exact .inr (.inr (.inl ⟨hlen, hn, by simp only [fetchInstr, op, hn, lo, hi]⟩))

/-- A fetch reads an opcode byte and as many operand bytes as it decides (R90, R115). -/
theorem fetchInstr_bytes (s : State) :
    (fetchInstr s).1 = (fetchByte s).1 :: (fetchInstr s).1.tail ∧
      (fetchInstr s).1.tail.length + 1 = opLength (fetchByte s).1 := by
  rcases fetchInstr_cases s with ⟨hlen, -, h⟩ | ⟨hlen, -, h⟩ | ⟨hlen, -, h⟩ | ⟨hlen, -, h⟩ <;> rw [h, hlen] <;>
    exact ⟨rfl, rfl⟩

/-- The cycles of an opcode from cycle 2 on are the fetches of the operand bytes, and then the table's own (R90, R91). -/
theorem fetchInstr_cycles {p : Prog} (hp : p.Clocked) (hfetch : p.fetch = fetchedOperands (fetchByte s).1) :
    runCycles p.cycles Latches.empty (fetchByte s).2 =
      (p.fin (operandBytes ((fetchInstr s).1.tail.take p.fetch)) (fetchInstr s).2).andThen (runCycles p.tail) := by
  rcases fetchInstr_cases s with ⟨-, hn, h⟩ | ⟨-, hn, h⟩ | ⟨-, hn, h⟩ | ⟨-, hn, h⟩ <;> rw [h] <;>
    rw [hn] at hfetch <;> simp only [Prog.cycles, hfetch]
  · rw [hp.implied hfetch]
    rfl
  · rfl
  · rfl
  · rfl

/-- The opcode fetch and the operand fetches count as cycles (R16). -/
theorem Prog.cycles_length {p : Prog} {op : Byte} (hfetch : p.fetch = fetchedOperands op) :
    p.cycles.length = p.fetch + p.tail.length := by
  have hle : p.fetch ≤ 2 := by
    have := (opLength_bounds op).2
    rw [hfetch]
    unfold fetchedOperands
    split <;> omega
  obtain h | h | h : p.fetch = 0 ∨ p.fetch = 1 ∨ p.fetch = 2 := by omega
  all_goals
    simp only [Prog.cycles, h, List.length_cons]
    omega

/-! ## From the fetch to the end of a sequence -/

/-- A sequence in progress, in a state. -/
def State.inProgress (sq : Seq) (s : State) : State := s.mark (.run sq) false

/-- What the cycles left of a sequence come to. -/
def finish (sq : Seq) (s : State) : Out := close sq.ir (sq.t + sq.rest.length) (runCycles sq.rest sq.q s)

/-- The sequence that an opcode begins. -/
def opSeq (op : Byte) : Seq := { ir := .op op, t := 2, q := Latches.empty }

theorem rest_opSeq (op : Byte) : (opSeq op).rest = opCycles op := rfl

/-- Running an opcode's table from its operand bytes is running its cycles from cycle 2 on. -/
theorem run_eq_finish {p : Prog} (h : (opEntry (fetchByte s).1).prog? = some p) :
    p.run (operandBytes ((fetchInstr s).1.tail.take (fetchedOperands (fetchByte s).1))) (fetchInstr s).2 =
      finish (opSeq (fetchByte s).1) (fetchByte s).2 := by
  obtain ⟨hir, hfetch⟩ := opEntry_table h
  unfold finish Prog.run
  rw [rest_opSeq, opCycles_of_table h, Prog.cycles_length hfetch, hir, ← hfetch,
    ← fetchInstr_cycles (opEntry_prog_clocked h) hfetch, Nat.add_assoc]
  rfl

/-- The policy is not changed by a fetch. -/
theorem fetchInstr_undoc (s : State) : (fetchInstr s).2.undoc = s.undoc :=
  ((sameConstants_kept s).fetchInstr (.refl s)).2.1

/-- An instruction fetched is refused as its opcode byte is, before its operands are looked at (R270); otherwise it runs
the cycles of its opcode byte. -/
theorem runBytes_fetchInstr (s : State) :
    (∃ why, opRefusal (fetchByte s).1 s = some why ∧ runBytes (fetchInstr s).1 (fetchInstr s).2 = .refused why) ∨
    (opRefusal (fetchByte s).1 s = none ∧
      runBytes (fetchInstr s).1 (fetchInstr s).2 = finish (opSeq (fetchByte s).1) (fetchByte s).2) := by
  obtain ⟨hbytes, hlen⟩ := fetchInstr_bytes s
  obtain ⟨i, hdecode, hencode⟩ := decode_of_length hlen
  have hop : opByte i = (fetchByte s).1 := by rw [opByte, hencode]; rfl
  have hrun : runBytes (fetchInstr s).1 (fetchInstr s).2 = (opEntry (fetchByte s).1).run (fetchByte s).1
      (operandBytes ((fetchInstr s).1.tail.take (fetchedOperands (fetchByte s).1))) (fetchInstr s).2 := by
    rw [hbytes, runBytes, hdecode]
    dsimp only
    rw [exec_eq_run, ← opEntry_opByte, startLatches, hop, hencode, List.tail_cons]
  rw [hrun]
  unfold opRefusal
  cases he : opEntry (fetchByte s).1 with
  | documented p =>
    exact .inr ⟨rfl, run_eq_finish (by rw [he]; rfl)⟩
  | annex p =>
    unfold OpEntry.run annexed
    dsimp only
    rw [fetchInstr_undoc]
    cases s.undoc with
    | refuse => exact .inl ⟨_, rfl, rfl⟩
    | annex => exact .inr ⟨rfl, run_eq_finish (by rw [he]; rfl)⟩
  | unstable => exact .inl ⟨_, rfl, rfl⟩

end Sys2Proof.Machine
end

section
/-! A whole step is a run of clock steps (R66, R112, R113, R134). -/

namespace Sys2Proof.Machine

/-! ## A run of clock steps -/

/-- The clock steps from `s` come to `o`: each adds one access, and the boundary signal is 0 before each. -/
inductive ClocksTo : State → Out → Prop
  | here (s : State) : ClocksTo s (.next s)
  | fault {s : State} {f : Fault} (h : clockStep s = .fault f) : ClocksTo s (.fault f)
  | tick {s u : State} {a : Access} {o : Out} (h : clockStep s = .next u) (hb : s.boundary = false)
      (ha : u.trace = s.trace ++ [a]) (hrest : ClocksTo u o) : ClocksTo s o

theorem clockSteps_succ {s u : State} (h : clockStep s = .next u) (n : Nat) :
    clockSteps (n + 1) s = clockSteps n u := by
  simp only [clockSteps, h]

theorem clockSteps_one (s : State) : clockSteps 1 s = clockStep s := by
  unfold clockSteps
  cases clockStep s <;> rfl

/-- The states passed through have boundary 0, and accesses that are a beginning of the last state's. -/
theorem ClocksTo.next {s t : State} (h : ClocksTo s (.next t)) :
    ∃ n, t.trace.length = s.trace.length + n ∧ s.trace <+: t.trace ∧ clockSteps n s = .next t ∧
      ∀ k < n, ∃ u, clockSteps k s = .next u ∧ u.boundary = false ∧ u.trace.length = s.trace.length + k ∧
        u.trace <+: t.trace := by
  generalize ho : Host.Outcome.next t = o at h
  induction h with
  | here s =>
    cases ho
    exact ⟨0, rfl, List.prefix_rfl, rfl, nofun⟩
  | fault h => cases ho
  | @tick s u a o h hb ha hrest ih =>
    obtain ⟨n, hlen, hprefix, hrun, hpassed⟩ := ih ho
    have hone : u.trace.length = s.trace.length + 1 := by rw [ha, List.length_append]; rfl
    have hs : s.trace <+: t.trace := (ha ▸ List.prefix_append _ _ : s.trace <+: u.trace).trans hprefix
    refine ⟨n + 1, by omega, hs, (clockSteps_succ h n).trans hrun, fun k hk => ?_⟩
    cases k with
    | zero => exact ⟨s, rfl, hb, rfl, hs⟩
    | succ k =>
      obtain ⟨v, hv, hvb, hvlen, hvprefix⟩ := hpassed k (by omega)
      exact ⟨v, (clockSteps_succ h k).trans hv, hvb, by omega, hvprefix⟩

theorem ClocksTo.fault_steps {s : State} {f : Fault} (h : ClocksTo s (.fault f)) : ∃ k, clockSteps k s = .fault f := by
  generalize ho : Host.Outcome.fault f = o at h
  induction h with
  | here s => cases ho
  | fault h =>
    cases ho
    exact ⟨1, (clockSteps_one _).trans h⟩
  | tick h hb ha hrest ih =>
    obtain ⟨k, hk⟩ := ih ho
    exact ⟨k + 1, (clockSteps_succ h k).trans hk⟩

theorem ClocksTo.not_refused {s : State} {r : Refusal} (h : ClocksTo s (.refused r)) : False := by
  generalize ho : Host.Outcome.refused r = o at h
  induction h with
  | here s => cases ho
  | fault h => cases ho
  | tick h hb ha hrest ih => exact ih ho

/-! ## A halt under way -/

/-- A result that a halt under way has been carried into. -/
def Micro.Halted : Micro → Prop
  | .more _ t => t.halt = true
  | .done t => t.halt = true
  | .halt f => f = .trapWithoutObserver .invalidRead

theorem Micro.Adds.halted {n : Nat} {s : State} {x : Micro} (hx : x.Adds n s) (hs : s.halt = true) : x.Halted := by
  cases x with
  | more q t => exact hx.2 hs
  | done t => exact hx.2 hs
  | halt f => exact hx hs

theorem runCycles_halted {cs : List Cycle} (hcs : CyclesMake cs) (q : Latches) {s : State} (hs : s.halt = true) :
    (runCycles cs q s).Halted := by
  induction cs generalizing q s with
  | nil => exact hs
  | cons c cs ih =>
    obtain ⟨hc, hcs⟩ := List.forall_mem_cons.mp hcs
    have hhalted := (hc q s).1.halted hs
    rw [runCycles_cons]
    cases hx : c q s with
    | more q' t => rw [hx] at hhalted; exact ih hcs q' hhalted
    | done t => rw [hx] at hhalted; exact hhalted
    | halt f => rw [hx] at hhalted; exact hhalted

/-- A halt under way is the outcome, however the sequence goes on (R363, R366). -/
theorem settle_close_halted {x : Micro} (hx : x.Halted) (ir : SeqKind) (n : Nat) :
    settle (close ir n x) = .fault (.trapWithoutObserver .invalidRead) := by
  cases x with
  | more q t => exact settle_of_halt hx
  | done t => exact settle_of_halt hx
  | halt f => exact congrArg Host.Outcome.fault hx

theorem settle_finish_halted (sq : Seq) {s : State} (hs : s.halt = true) :
    settle (finish sq s) = .fault (.trapWithoutObserver .invalidRead) :=
  settle_close_halted (runCycles_halted (rest_makes sq) sq.q hs) _ _

/-! ## A sequence in progress -/

/-- The cycle after, with the latches that this one leaves. -/
def Seq.succ (sq : Seq) (q : Latches) : Seq := { sq with t := sq.t + 1, q }

/-- From cycle 2 on the cycles left are those before but one (R32). -/
theorem rest_succ {sq : Seq} (h : 2 ≤ sq.t) (q : Latches) : (sq.succ q).rest = sq.rest.tail := by
  have hop : sq.t + 1 - 2 = sq.t - 2 + 1 := by omega
  have hseq : sq.t + 1 - 1 = sq.t - 1 + 1 := by omega
  unfold Seq.rest Seq.succ cyclesFrom
  cases sq.ir <;> simp only [hop, hseq, List.tail_drop]

/-- One cycle of a sequence, whatever the phase and the boundary signal of the state. -/
theorem runCycle_inProgress {sq : Seq} {c : Cycle} {cs : List Cycle} (h : sq.rest = c :: cs) (s : State) :
    clockStep (s.inProgress sq) = settle (close sq.ir (sq.t + 1) (c sq.q s)) := by
  have hc : Cycle.Makes 1 c := rest_makes sq c (h ▸ List.mem_cons_self)
  have hclock : clockStep (s.inProgress sq) = settle (runCycle sq (s.inProgress sq)) := rfl
  rw [hclock, runCycle, h]
  dsimp only
  exact congrArg settle ((congrArg _ ((hc sq.q s).2 .idle false)).trans (close_mark ..))

/-- The end of a sequence in progress is what its clock steps come to: by induction on the cycles left. -/
theorem finish_clocksTo {sq : Seq} (ht : 2 ≤ sq.t) {s : State} (hs : s.halt = false) :
    ClocksTo (s.inProgress sq) (settle (finish sq s)) := by
  induction hcs : sq.rest generalizing sq s with
  | nil =>
    have hfinish : finish sq s = .next (s.inProgress sq) := by rw [finish, hcs]; rfl
    rw [settle_of_next hfinish hs]
    exact .here _
  | cons c cs ih =>
    have hclock := runCycle_inProgress hcs s
    have hadds := (rest_makes sq c (hcs ▸ List.mem_cons_self) sq.q s).1
    have hfinish : finish sq s =
        close sq.ir (sq.t + (cs.length + 1)) ((c sq.q s).andThen (runCycles cs)) := by rw [finish, hcs]; rfl
    cases hx : c sq.q s with
    | more q t =>
      rw [hx] at hclock hadds hfinish
      obtain ⟨a, ha⟩ := State.Adds.one hadds
      have hrest : (sq.succ q).rest = cs := by rw [rest_succ ht, hcs, List.tail_cons]
      have hsucc : finish sq s = finish (sq.succ q) t := by
        rw [hfinish, finish, hrest, ← Nat.add_assoc, Nat.add_right_comm]
        rfl
      rw [hsucc]
      cases hhalt : t.halt with
      | true =>
        rw [settle_finish_halted _ hhalt]
        exact .fault (hclock.trans (settle_of_halt hhalt))
      | false => exact .tick (hclock.trans (settle_of_next rfl hhalt)) rfl ha (ih (Nat.le_succ_of_le ht) hhalt hrest)
    | done t =>
      rw [hx] at hclock hadds hfinish
      obtain ⟨a, ha⟩ := State.Adds.one hadds
      rw [hfinish]
      cases hhalt : t.halt with
      | true =>
        rw [settle_close_halted (x := .done t) hhalt] at hclock
        exact settle_close_halted (x := .done t) hhalt _ _ ▸ .fault hclock
      | false =>
        have hnext : ∀ n, settle (close sq.ir n (.done t)) = .next (atBoundary t) := fun n => settle_of_next rfl hhalt
        exact hnext _ ▸ .tick (hclock.trans (hnext _)) rfl ha (.here _)
    | halt f =>
      rw [hx] at hclock hfinish
      rw [hfinish]
      exact .fault hclock

/-! ## The first cycle -/

/-- The sequence of a request begins with a dummy read of `PC`, which ends in going on (R354, R390). -/
theorem request_rest {s : State} {k : SeqKind} (h : s.request = some k) :
    ∃ first : State → State, Silent first ∧
      Seq.rest { ir := k, t := 1, q := Latches.empty } =
        dummyPC (fun q s => .more q (first s)) :: Seq.rest { ir := k, t := 2, q := Latches.empty } := by
  unfold State.request at h
  split at h
  · cases h
    exact ⟨fun s => { s with resetPending := false }, fun _ => ⟨rfl, rfl, fun _ _ => rfl⟩, rfl⟩
  · split at h
    · cases h
      exact ⟨fun s => { s with nmiPending := false }, fun _ => ⟨rfl, rfl, fun _ _ => rfl⟩, rfl⟩
    · split at h <;> cases h
      exact ⟨id, fun _ => ⟨rfl, rfl, fun _ _ => rfl⟩, rfl⟩

/-- From a boundary, the first clock step and the whole step are refused alike, or the first clock step leaves a
sequence in progress whose end the whole step is. -/
theorem firstCycle_cases (s : State) :
    (∃ why, firstCycle s = .refused why ∧ stepAtBoundary s = .refused why) ∨
    ∃ sq t a, 2 ≤ sq.t ∧ t.trace = s.trace ++ [a] ∧ firstCycle s = .next (t.inProgress sq) ∧
      stepAtBoundary s = finish sq t := by
  unfold firstCycle stepAtBoundary
  cases hq : s.request with
  | some k =>
    obtain ⟨first, hfirst, hrest⟩ := request_rest hq
    let r := busRead s.PC { s with phase := .idle }
    refine .inr ⟨{ ir := k, t := 2, q := Latches.empty }, first r.2, .rd s.PC r.1, Nat.le_refl 2,
      (hfirst r.2).1.trans (busRead_trace _ _), ?_, ?_⟩
    · simp only [runCycle, hrest]
      rfl
    · simp only [runRest, hrest]
      rw [finish, List.length_cons, Nat.add_comm _ 1, ← Nat.add_assoc]
      rfl
  | none =>
    dsimp only
    rcases runBytes_fetchInstr s with ⟨why, hwhy, hrun⟩ | ⟨hnone, hrun⟩
    · exact .inl ⟨why, by simp only [opcodeCycle, hwhy], hrun⟩
    · refine .inr ⟨opSeq (fetchByte s).1, (fetchByte s).2, .rd s.PC (busRead s.PC s).1, Nat.le_refl 2,
        busRead_trace _ _, ?_, hrun⟩
      simp only [opcodeCycle, hnone]
      rfl

/-- From a boundary, the first clock step is refused or halts the block as the whole step does, or it makes one access
and the whole step is what the clock steps after it come to. -/
theorem step_clocksTo {s : State} (hidle : s.phase = .idle) :
    (∃ why, clockStep s = .refused why ∧ step s = .refused why) ∨ (∃ f, clockStep s = .fault f ∧ step s = .fault f) ∨
    ∃ u, clockStep s = .next u ∧ u.trace.length = 1 ∧ ClocksTo u (step s) := by
  have hstep : step s = settle (stepAtBoundary s.beginSequence) := by simp only [step, hidle]
  have hclock : clockStep s = settle (firstCycle s.beginSequence) := by simp only [clockStep, hidle]
  rcases firstCycle_cases s.beginSequence with ⟨why, hfirst, hwhole⟩ | ⟨sq, t, a, ht, ha, hfirst, hwhole⟩
  · exact .inl ⟨why, hclock.trans (settle_refused.mpr hfirst), hstep.trans (settle_refused.mpr hwhole)⟩
  · rw [hfirst] at hclock
    rw [hwhole] at hstep
    cases hhalt : t.halt with
    | true => exact .inr (.inl ⟨_, hclock.trans (settle_of_halt hhalt), hstep.trans (settle_finish_halted sq hhalt)⟩)
    | false =>
      exact .inr (.inr ⟨t.inProgress sq, hclock.trans (settle_of_next rfl hhalt), congrArg List.length ha,
        hstep ▸ finish_clocksTo ht hhalt⟩)

/-- Settles O6: the first clock step, and then the run of clock steps that the whole step is. -/
theorem stepIsClockSteps : Obligations.StepIsClockSteps := by
  unfold Obligations.StepIsClockSteps
  intro s hidle
  rcases step_clocksTo hidle with ⟨why, hclock, hstep⟩ | ⟨f, hclock, hstep⟩ | ⟨u, hclock, hone, hrun⟩
  · rw [hstep, clockSteps_one, hclock]
    exact ⟨fun _ h => (by cases h), fun _ h => (by cases h), fun _ h => h⟩
  · rw [hstep]
    exact ⟨fun _ h => (by cases h), fun _ h => ⟨1, (clockSteps_one s).trans (hclock.trans h)⟩, fun _ h => (by cases h)⟩
  · refine ⟨fun t ht => ?next, fun f hf => ?fault, fun r hr => (hr ▸ hrun).not_refused.elim⟩
    case next =>
      obtain ⟨n, hlen, -, hn, hpassed⟩ := (ht ▸ hrun).next
      rw [hone, Nat.add_comm] at hlen
      refine ⟨hlen ▸ (clockSteps_succ hclock n).trans hn, fun k hpos hk => ?_⟩
      obtain ⟨j, rfl⟩ := Nat.exists_eq_succ_of_ne_zero (Nat.ne_of_gt hpos)
      obtain ⟨v, hv, hb, hvlen, hprefix⟩ := hpassed j (by omega)
      exact ⟨v, (clockSteps_succ hclock j).trans hv, hb, by omega, hprefix⟩
    case fault =>
      obtain ⟨k, hk⟩ := (hf ▸ hrun).fault_steps
      exact ⟨k + 1, (clockSteps_succ hclock k).trans hk⟩

end Sys2Proof.Machine
end

section
/-! The decoder and the encoder are inverse to each other (R90, R91, R95 to R97): every instruction is the reading of
its encoding, and as many bytes as an opcode byte decides are the encoding of an instruction. -/

namespace Sys2Proof.Machine

/-- An entry that waits for two operand bytes puts the operand together again, the low byte first (R68, R91). -/
theorem decode_two_operand_bytes {op : Byte} {mk : Addr → Instr} (h : opcodeTable[op.toNat]? = some (.f3 mk))
    (a : Addr) (rest : List Byte) : decode (op :: loByte a :: hiByte a :: rest) = .ok (mk a, rest) := by
  simp only [decode, h, Form.complete, mkAddr_hiByte_loByte]

/-- The bytes of an instruction decode to it (R91, R96, R97): an operand of two bytes is put together again, every other
instruction is its entry of the table as it stands. -/
theorem decode_encode (i : Instr) (rest : List Byte) : decode (encode i ++ rest) = .ok (i, rest) := by
  cases i with
  | nopAbs0C | oraAbs | aslAbs | sloAbs | oraAby | sloAby | nopAbx1C | oraAbx | aslAbx | sloAbx | jsr | bitAbs
  | andAbs | rolAbs | rlaAbs | andAby | rlaAby | nopAbx3C | andAbx | rolAbx | rlaAbx | jmpAbs | eorAbs | lsrAbs
  | sreAbs | eorAby | sreAby | nopAbx5C | eorAbx | lsrAbx | sreAbx | jmpInd | adcAbs | rorAbs | rraAbs | adcAby
  | rraAby | nopAbx7C | adcAbx | rorAbx | rraAbx | styAbs | staAbs | stxAbs | saxAbs | staAby | tasAby | shyAbx
  | staAbx | shxAby | shaAby | ldyAbs | ldaAbs | ldxAbs | laxAbs | ldaAby | lasAby | ldyAbx | ldaAbx | ldxAby
  | laxAby | cpyAbs | cmpAbs | decAbs | dcpAbs | cmpAby | dcpAby | nopAbxDC | cmpAbx | decAbx | dcpAbx | cpxAbs
  | sbcAbs | incAbs | iscAbs | sbcAby | iscAby | nopAbxFC | sbcAbx | incAbx | iscAbx =>
    exact decode_two_operand_bytes rfl _ rest
  | _ => rfl

/-- Settles O1: the case split is over the formats of R91. -/
theorem decodeEncode : Obligations.DecodeEncode := by
  unfold Obligations.DecodeEncode
  exact decode_encode

/-- A form refuses fewer bytes than its operand has. -/
theorem complete_of_length_lt {f : Form} {x : Addr} (op : Byte) {operands : List Byte}
    (h : operands.length < (formOperands x f).length) : f.complete op operands = .error (.truncated op) := by
  match f, operands, h with
  | .f2 mk, [], _ => rfl
  | .f3 mk, [], _ => rfl
  | .f3 mk, [_], _ => rfl
  | .f3 mk, _ :: _ :: _, h => simp [formOperands] at h

/-- The bytes taken of a string that is long enough are as many as the opcode byte decides. -/
theorem length_opcode_cons_take {op : Byte} {operands : List Byte} (h : opLength op ≤ operands.length + 1) :
    (op :: operands.take (opLength op - 1)).length = opLength op := by
  have := (opLength_bounds op).1
  rw [List.length_cons, List.length_take]
  omega

/-- As many bytes as the opcode byte decides, or more, decode to the instruction that those bytes encode (R90, R95). -/
theorem decode_of_opLength_le {op : Byte} {operands : List Byte} (h : opLength op ≤ operands.length + 1) :
    ∃ i, decode (op :: operands) = .ok (i, operands.drop (opLength op - 1)) ∧
      encode i = op :: operands.take (opLength op - 1) := by
  obtain ⟨i, -, hencode⟩ := decode_of_length (length_opcode_cons_take h)
  have hdecode := decode_encode i (operands.drop (opLength op - 1))
  rw [hencode, List.cons_append, List.take_append_drop] at hdecode
  exact ⟨i, hdecode, hencode⟩

/-- Fewer bytes than the opcode byte decides are refused (R90). -/
theorem decode_of_lt_opLength {op : Byte} {operands : List Byte} (h : operands.length + 1 < opLength op) :
    decode (op :: operands) = .error (.truncated op) := by
  obtain ⟨f, hmem, hf, rfl⟩ := opcodeTable_lookup op
  rw [← formOperands_length hmem 0#16, Nat.add_lt_add_iff_right] at h
  simp only [decode, hf, complete_of_length_lt _ h]

/-- Settles O2: a string that decodes is long enough, and then it begins with the encoding. -/
theorem encodeDecode : Obligations.EncodeDecode := by
  unfold Obligations.EncodeDecode
  intro bytes i rest hdecode
  cases bytes with
  | nil => cases hdecode
  | cons op operands =>
    rcases Nat.lt_or_ge (operands.length + 1) (opLength op) with hshort | hlong
    · rw [decode_of_lt_opLength hshort] at hdecode
      cases hdecode
    · obtain ⟨j, hj, hencode⟩ := decode_of_opLength_le hlong
      rw [hj] at hdecode
      cases hdecode
      rw [Instr.wf, hencode, List.cons_append, List.take_append_drop]
      exact ⟨rfl, beq_iff_eq.mpr (length_opcode_cons_take hlong)⟩

/-- Settles O3: by the number of operand bytes that the table's entry waits for. -/
theorem decodeByLength : Obligations.DecodeByLength := by
  unfold Obligations.DecodeByLength
  intro op operands
  obtain ⟨hmin, hmax⟩ := opLength_bounds op
  refine ⟨hmin, hmax, fun hlong => ?_, decode_of_lt_opLength, rfl⟩
  obtain ⟨i, hdecode, hencode⟩ := decode_of_opLength_le hlong
  exact ⟨i, hdecode, hencode ▸ length_opcode_cons_take hlong⟩

/-- Settles O4, by running the decoder on each word. -/
theorem sampleWords : Obligations.SampleWords := by
  unfold Obligations.SampleWords
  decide

end Sys2Proof.Machine
end

section
/-! What the addressing modes read (R92, R119 to R128): from the bytes of RAM that they meet, and on any bus. -/

namespace Sys2Proof.Machine

open Sys2Proof.Spec

variable {s : State} {a : Addr} {v : Byte}

/-- A read of a byte that RAM lists (R64): only the access is recorded. -/
theorem busRead_of_ramByte (h : ramByte s a = some v) :
    busRead a s = (v, { s with trace := s.trace ++ [Access.rd a v] }) := by
  obtain ⟨n, hcell, hread⟩ := Option.bind_eq_some_iff.mp h
  exact busRead_listed hcell hread

/-- The same after other accesses, on which the byte does not depend. -/
theorem busRead_of_ramByte_traced (tr : List Access) (h : ramByte s a = some v) :
    busRead a { s with trace := tr } = (v, { s with trace := tr ++ [Access.rd a v] }) :=
  busRead_of_ramByte (s := { s with trace := tr }) h

/-- The pointer of `(zp,X)` and `(zp),Y`, from RAM (R69 (b)). -/
theorem pointerAt_of_ramByte {p lo hi : Byte} (tr : List Access) (hlo : ramByte s (zeroPage p) = some lo)
    (hhi : ramByte s (zeroPage (p + 1)) = some hi) :
    pointerAt p { s with trace := tr } = (mkAddr hi lo,
      { s with trace := tr ++ [Access.rd (zeroPage p) lo, Access.rd (zeroPage (p + 1)) hi] }) := by
  unfold pointerAt
  rw [busRead_of_ramByte_traced tr hlo]
  dsimp only
  rw [busRead_of_ramByte_traced _ hhi, List.append_assoc]
  rfl

/-- The operand of a mode that adds an index last, from its base: the read at the uncorrected address is made on a page
crossing alone (R125, R126, R128). -/
theorem operand_of_index (md : Mode) {x base : Addr} {i m : Byte} {tr : List Access} (hindex : md.index s = some i)
    (hbase : md.base x s = (base, { s with trace := tr })) (hm : ramByte s (indexed base i) = some m)
    (hv : ramByte s (uncorrected base i) = some v) :
    md.operand x s = (m, { s with trace := tr ++
      (if 255 < (loByte base).toNat + i.toNat then [Access.rd (uncorrected base i) v] else []) ++
      [Access.rd (indexed base i) m] }) := by
  unfold Mode.operand
  rw [hindex, hbase]
  dsimp only
  by_cases hcross : 255 < (loByte base).toNat + i.toNat
  · have hcrosses : crosses base i = true := decide_eq_true hcross
    rw [hcrosses, cond_true, if_pos hcross, busRead_of_ramByte_traced tr hv]
    exact busRead_of_ramByte_traced _ hm
  · have hcrosses : crosses base i = false := decide_eq_false hcross
    rw [hcrosses, cond_false, if_neg hcross, List.append_nil]
    exact busRead_of_ramByte_traced _ hm

/-- The operand of a mode that adds no index last, read at its base. -/
theorem operand_of_no_index (md : Mode) {x base : Addr} {m : Byte} {pre : List Access} (hindex : md.index s = none)
    (himm : md ≠ .imm) (hbase : md.base x s = (base, { s with trace := s.trace ++ pre }))
    (hm : ramByte s base = some m) :
    md.operand x s = (m, { s with trace := s.trace ++ (pre ++ [Access.rd base m]) }) := by
  unfold Mode.operand
  rw [hindex, hbase]
  dsimp only
  rw [if_neg himm, busRead_of_ramByte_traced _ hm, List.append_assoc]

/-- A dummy read of RAM (R150): only the access is recorded. -/
theorem dummyRead_of_ramByte (h : ramByte s a = some v) :
    dummyRead a s = { s with trace := s.trace ++ [Access.rd a v] } :=
  congrArg Prod.snd (busRead_of_ramByte h)

/-- Settles O42: each mode's base, and then the read at it or at the indexed address. -/
theorem operandOverRam : Obligations.OperandOverRam := by
  unfold Obligations.OperandOverRam
  intro x s
  refine ⟨rfl, fun m hm => ?zp, fun v m hv hm => ?zpx, fun v m hv hm => ?zpy, fun m hm => ?abs, ?absIndexed,
    ?izx, ?izy⟩
  case zp => exact busRead_of_ramByte hm
  case zpx => exact operand_of_no_index .zpx rfl nofun (congrArg (Prod.mk _) (dummyRead_of_ramByte hv)) hm
  case zpy => exact operand_of_no_index .zpy rfl nofun (congrArg (Prod.mk _) (dummyRead_of_ramByte hv)) hm
  case abs => exact busRead_of_ramByte hm
  case absIndexed =>
    rintro i md (⟨rfl, rfl⟩ | ⟨rfl, rfl⟩) v m hm hv
    · exact operand_of_index .abx rfl rfl hm hv
    · exact operand_of_index .aby rfl rfl hm hv
  case izx =>
    intro v lo hi m hv hlo hhi hm
    have hbase : Mode.base .izx x s = _ :=
      (congrArg (pointerAt _) (dummyRead_of_ramByte hv)).trans (pointerAt_of_ramByte _ hlo hhi)
    rw [List.append_assoc] at hbase
    exact operand_of_no_index .izx rfl nofun hbase hm
  case izy =>
    intro lo hi v m hlo hhi hm hv
    have huncorrected : uncorrected (mkAddr hi lo) s.Y = mkAddr hi (lo + s.Y) := by simp [uncorrected]
    have h := operand_of_index .izy rfl (pointerAt_of_ramByte s.trace hlo hhi) hm (huncorrected ▸ hv)
    rwa [huncorrected, loByte_mkAddr] at h

/-! ## The write and rmw classes -/

/-- The pointer's two reads, on any bus. -/
theorem pointerAt_trace (p : Byte) (s : State) : ∃ lo hi, (pointerAt p s).1 = mkAddr hi lo ∧
    (pointerAt p s).2.trace = s.trace ++ [Access.rd (zeroPage p) lo, Access.rd (zeroPage (p + 1)) hi] := by
  refine ⟨_, _, rfl, ?_⟩
  simp only [pointerAt, busRead_trace, List.append_assoc, List.cons_append, List.nil_append]

/-- Settles O43: the trace of each read, and that the resolution of an address is reads only. -/
theorem addressAccesses : Obligations.AddressAccesses := by
  unfold Obligations.AddressAccesses
  intro x s
  refine ⟨rfl, ⟨rfl, _, busRead_trace _ _⟩, ⟨rfl, _, busRead_trace _ _⟩, rfl, ⟨rfl, _, busRead_trace _ _⟩,
    ⟨rfl, _, busRead_trace _ _⟩, ?izx, ?izy, fun md => ?kept⟩
  case izx =>
    obtain ⟨lo, hi, haddr, htrace⟩ := pointerAt_trace (loByte x + s.X) (busRead (zeroPage (loByte x)) s).2
    rw [busRead_trace, List.append_assoc] at htrace
    exact ⟨_, lo, hi, haddr, htrace⟩
  case izy =>
    obtain ⟨lo, hi, haddr, htrace⟩ := pointerAt_trace (loByte x) s
    have haddress : Mode.address .izy x s = (mkAddr hi lo + s.Y.setWidth 16,
        (busRead (mkAddr hi (lo + s.Y)) (pointerAt (loByte x) s).2).2) := by
      simp [Mode.address, Mode.index, Mode.base, haddr, indexed, uncorrected]
    have hlast := busRead_trace (mkAddr hi (lo + s.Y)) (pointerAt (loByte x) s).2
    rw [htrace, List.append_assoc] at hlast
    exact ⟨_, lo, hi, congrArg Prod.fst haddress, (congrArg (·.2.trace) haddress).trans hlast⟩
  case kept =>
    have h := address_reads md x s
    exact ⟨h.mem, h.A, h.X, h.Y, h.S, h.PC, h.P⟩

end Sys2Proof.Machine
end

section
/-! A step from a boundary is the meaning of the instruction fetched (R90, R112, R115). -/

namespace Sys2Proof.Machine

open Sys2Proof.Spec

variable {s : State}

/-- Where no read can halt the block, the end of a step is what it ran (R362). -/
theorem settle_exec_of_quiet (i : Instr) (h : s.quiet = true) : settle (exec i s) = exec i s := by
  cases hout : exec i s with
  | next t => exact settle_of_next rfl (quiet_iff.mp (quiet_kept.exec h hout)).1
  | fault f => rfl
  | refused r => rfl

/-- The addresses from `PC` on, wrapping at the end of the address space (R69 (a)). -/
def fetchAddresses (n : Nat) (s : State) : List Addr := (List.range n).map fun k => s.PC + BitVec.ofNat 16 k

/-- The state after `n` fetches, of the first bytes of a string. -/
def afterFetches (n : Nat) (bytes : List Byte) (s : State) : State :=
  { s with PC := s.PC + BitVec.ofNat 16 n, trace := s.trace ++ readsAt (fetchAddresses n s) bytes }

/-- A byte string lies in RAM at `PC` and after it. -/
def AtPC (bytes : List Byte) (s : State) : Prop :=
  ∀ k (h : k < bytes.length), ramByte s (s.PC + BitVec.ofNat 16 k) = some bytes[k]

theorem afterFetches_zero (bytes : List Byte) (s : State) : afterFetches 0 bytes s = s := by
  simp [afterFetches, readsAt, fetchAddresses]

theorem readsAt_concat {as : List Addr} {vs : List Byte} (h : as.length < vs.length) (a : Addr) :
    readsAt (as ++ [a]) vs = readsAt as vs ++ [Access.rd a vs[as.length]] := by
  induction as generalizing vs with
  | nil =>
    cases vs with
    | nil => cases h
    | cons v vs => rfl
  | cons b as ih =>
    cases vs with
    | nil => cases h
    | cons v vs => exact congrArg (_ :: ·) (ih (Nat.lt_of_succ_lt_succ h))

/-- One more fetch, of the next byte of a string in RAM. -/
theorem fetchByte_afterFetches {bytes : List Byte} (hram : AtPC bytes s) {n : Nat} (hn : n < bytes.length) :
    fetchByte (afterFetches n bytes s) = (bytes[n], afterFetches (n + 1) bytes s) := by
  have hread : busRead (afterFetches n bytes s).PC (afterFetches n bytes s) = _ := busRead_of_ramByte (hram n hn)
  have htrace : readsAt (fetchAddresses (n + 1) s) bytes =
      readsAt (fetchAddresses n s) bytes ++ [Access.rd (s.PC + BitVec.ofNat 16 n) bytes[n]] := by
    have hlen : (fetchAddresses n s).length = n := by simp [fetchAddresses]
    have hconcat := readsAt_concat (hlen.trans_lt hn) (s.PC + BitVec.ofNat 16 n)
    simp only [hlen] at hconcat
    rw [← hconcat, fetchAddresses, List.range_succ, List.map_append]
    rfl
  have hPC : s.PC + BitVec.ofNat 16 n + 1 = s.PC + BitVec.ofNat 16 (n + 1) := by
    rw [BitVec.ofNat_add, BitVec.add_assoc]
    rfl
  unfold fetchByte
  rw [hread]
  simp only [afterFetches, htrace, ← hPC, List.append_assoc]

/-- The look at the byte at `PC` sees what a fetch would (R62, R231). -/
theorem peek_PC (s : State) : peek s.PC s = (fetchByte s).1 := rfl

/-- A string of the length that its opcode byte decides, in RAM at `PC`, is fetched (R90, R115), but for the last byte
of `JSR`, which is only looked at (R231). -/
theorem fetchInstr_of_atPC {op : Byte} {operands : List Byte} (hlength : operands.length + 1 = opLength op)
    (hram : AtPC (op :: operands) s) :
    fetchInstr s = (op :: operands, afterFetches (fetchedOperands op + 1) (op :: operands) s) := by
  have hop : fetchByte s = (op, afterFetches 1 (op :: operands) s) := by
    have h := fetchByte_afterFetches hram (Nat.zero_lt_succ _)
    rwa [afterFetches_zero] at h
  have hcases := fetchInstr_cases s
  rw [hop] at hcases
  rcases hcases with ⟨hlen, hn, hfetch⟩ | ⟨hlen, hn, hfetch⟩ | ⟨hlen, hn, hfetch⟩ |
    ⟨hlen, hn, hfetch⟩ <;>
    rw [hlen] at hlength <;> rw [hn, hfetch]
  · obtain rfl := List.length_eq_zero_iff.mp (Nat.succ.inj hlength)
    rfl
  · obtain ⟨lo, rfl⟩ := List.length_eq_one_iff.mp (Nat.succ.inj hlength)
    rw [fetchByte_afterFetches hram (n := 1) (by simp)]
    rfl
  · obtain ⟨lo, hi, rfl⟩ := List.length_eq_two.mp (Nat.succ.inj hlength)
    rw [fetchByte_afterFetches hram (n := 1) (by simp), fetchByte_afterFetches hram (n := 2) (by simp)]
    rfl
  · obtain ⟨lo, hi, rfl⟩ := List.length_eq_two.mp (Nat.succ.inj hlength)
    rw [fetchByte_afterFetches hram (n := 1) (by simp), peek_PC, fetchByte_afterFetches hram (n := 2) (by simp)]
    rfl

/-- An encoding is an opcode byte and as many operand bytes as it decides (R90, R91). -/
theorem encode_eq_cons (i : Instr) :
    ∃ operands, encode i = opcode i :: operands ∧ operands.length + 1 = opLength (opcode i) := by
  have hwf : bytesWellFormed (encode i) = true :=
    (encodeDecode (encode i) i [] (by simpa using decode_encode i [])).2
  unfold opcode
  cases hencode : encode i with
  | nil => rw [hencode] at hwf; cases hwf
  | cons op operands => exact ⟨operands, rfl, by simpa [hencode, bytesWellFormed] using hwf⟩

/-- The bytes of an instruction in RAM at `PC` are fetched as the instruction. -/
theorem fetchInstr_of_encode {i : Instr} (hram : AtPC (encode i) s) :
    fetchInstr s = (encode i, afterFetches (fetchedBytes i) (encode i) s) := by
  obtain ⟨operands, hencode, hlength⟩ := encode_eq_cons i
  have hfetched : fetchedBytes i = fetchedOperands (opcode i) + 1 := by
    unfold fetchedBytes fetchedOperands
    split
    · rfl
    · rw [hencode, List.length_cons, ← hlength, Nat.add_sub_cancel]
  rw [hencode] at hram ⊢
  rw [fetchInstr_of_atPC hlength hram, hfetched]

/-- Settles O5: the fetch decodes, by the length that the opcode byte decides; and from RAM it gives the instruction. -/
theorem stepRunsInstruction : Obligations.StepRunsInstruction := by
  unfold Obligations.StepRunsInstruction
  refine ⟨fun s hidle hrequest => ?fetched, fun s i hidle hrequest hram => ?inRam⟩
  case fetched =>
    obtain ⟨hbytes, hlen⟩ := fetchInstr_bytes s.beginSequence
    obtain ⟨i, hdecode, -⟩ := decode_of_length hlen
    rw [← hbytes] at hdecode
    have hstep : step s = settle (exec i (fetchInstr s.beginSequence).2) := by
      rw [step_fetch hidle hrequest, runBytes, hdecode]
    exact ⟨i, hdecode, hstep, fun hquiet =>
      hstep.trans (settle_exec_of_quiet i (quiet_kept.fetchInstr (s := s.beginSequence) hquiet))⟩
  case inRam =>
    have hdecode := decode_encode i []
    rw [List.append_nil] at hdecode
    rw [step_fetch hidle hrequest, fetchInstr_of_encode (s := s.beginSequence) hram, runBytes, hdecode]
    rfl

end Sys2Proof.Machine
end

section
/-! Which bytes of memory an instruction may write (R23, R64, R131 to R133): an opcode that stores nothing has a table whose
every access is a read; a store or a read-modify-write resolves its address by reads and writes there alone; `PHA`,
`PHP`, `JSR` and `BRK` write where they push. -/

namespace Sys2Proof.Machine

open Sys2Proof.Spec

/-! ## Instructions that store nothing -/

/-- `t` has the memory and the queue of `s`, and, with no device outside the block on the bus, its events and the states
of such devices. -/
def Unwritten (s t : State) : Prop :=
  t.platform = s.platform ∧ t.mem = s.mem ∧ t.dq = s.dq ∧
    (s.platform.regions.all (fun r => r.dev.own) = true → t.traps = s.traps ∧ t.devices = s.devices)

theorem Unwritten.refl (s : State) : Unwritten s s := ⟨rfl, rfl, rfl, fun _ => ⟨rfl, rfl⟩⟩

/-- A bus read writes nothing (R61). -/
theorem unwritten_read (s : State) : BusReadKeeps (Unwritten s) := by
  intro a t h
  obtain ⟨hplatform, hmem, hdq, hown⟩ := h
  have hread := ReadsOnly.read a t
  refine ⟨hread.platform.trans hplatform, hread.mem.trans hmem, hread.dq.trans hdq, fun ho => ?_⟩
  obtain ⟨htraps, hdevices⟩ := hown ho
  have ho' : t.platform.regions.all (fun r => r.dev.own) = true := hplatform ▸ ho
  exact ⟨(hread.traps ho').trans htraps, (hread.devices ho').trans hdevices⟩

/-- The cases are the read class (R131), the implied class (R117), and the instructions with tables of their own that make
no write; every other opcode is listed as one that stores. -/
theorem instrEntry_unwritten {i : Instr} (hi : opcode i ∉ storesByte) (s : State) :
    (instrEntry i).Keeps (Unwritten s) := by
  have hr := unwritten_read s
  cases i with
  | oraIzx | oraZp | oraImm | oraAbs | oraIzy | oraZpx | oraAby | oraAbx | andIzx | andZp | andImm | andAbs
  | andIzy | andZpx | andAby | andAbx | eorIzx | eorZp | eorImm | eorAbs | eorIzy | eorZpx | eorAby | eorAbx
  | ldaIzx | ldaZp | ldaImm | ldaAbs | ldaIzy | ldaZpx | ldaAby | ldaAbx | ldxImm | ldxZp | ldxAbs | ldxZpy
  | ldxAby | ldyImm | ldyZp | ldyAbs | ldyZpx | ldyAbx | laxIzx | laxZp | laxAbs | laxIzy | laxZpy | laxAby
  | adcIzx | adcZp | adcImm | adcAbs | adcIzy | adcZpx | adcAby | adcAbx | sbcIzx | sbcZp | sbcImm | usbcImm
  | sbcAbs | sbcIzy | sbcZpx | sbcAby | sbcAbx | cmpIzx | cmpZp | cmpImm | cmpAbs | cmpIzy | cmpZpx | cmpAby
  | cmpAbx | cpxImm | cpxZp | cpxAbs | cpyImm | cpyZp | cpyAbs | bitZp | bitAbs | ancImm0B | ancImm2B | alrImm
  | arrImm | sbxImm | nopZp04 | nopAbs0C | nopZpx14 | nopAbx1C | nopZpx34 | nopAbx3C | nopZp44 | nopZpx54
  | nopAbx5C | nopZp64 | nopZpx74 | nopAbx7C | nopImm80 | nopImm82 | nopImm89 | nopImmC2 | nopZpxD4 | nopAbxDC
  | nopImmE2 | nopZpxF4 | nopAbxFC =>
    exact readProg_keeps hr _ _ fun _ _ h => h
  | aslAcc | rolAcc | lsrAcc | rorAcc | tax | tay | txa | tya | tsx | txs | inx | iny | dex | dey | clc | sec | cli
  | sei | clv | cld | sed | nop | nopImp1A | nopImp3A | nopImp5A | nopImp7A | nopImpDA | nopImpFA =>
    exact impliedProg_keeps hr _ fun _ h => h
  | bpl | bmi | bvc | bvs | bcc | bcs | bne | beq => exact branchProg_keeps hr (fun _ _ h => h) _ _
  | jmpAbs => exact ⟨fun _ _ h => h, cyclesKeep_nil⟩
  | jmpInd => exact ⟨goOn_keeps, jumpIndirectCycles_keep hr fun _ _ h => h⟩
  | rts => exact ⟨goOn_keeps, returnSubCycles_keep hr (fun _ _ h => h) fun _ _ h => h⟩
  | rti => exact ⟨goOn_keeps, returnCycles_keep hr (fun _ _ h => h) (fun _ _ h => h) fun _ _ h => h⟩
  | pla | plp => exact ⟨goOn_keeps, pullTable_keeps hr (fun _ _ h => h) fun _ _ h => h⟩
  | jam02 | jam12 | jam22 | jam32 | jam42 | jam52 | jam62 | jam72 | jam92 | jamB2 | jamD2 | jamF2 =>
    exact ⟨goOn_keeps, cyclesKeep_cons (dummyPC_keeps hr goOn_keeps) cyclesKeep_nil⟩
  | aneImm | shaIzy | tasAby | shyAbx | shxAby | shaAby | lxaImm | lasAby => trivial
  | _ => exact absurd (List.contains_iff_mem.mp rfl) hi

/-- An instruction that stores nothing and answers a next state. -/
theorem exec_unwritten {i : Instr} {s t : State} (h : exec i s = .next t) (hi : opcode i ∉ storesByte) :
    Unwritten s t :=
  exec_keeps (instrEntry_unwritten hi s) (fun _ _ _ h => h) (.refl s) h

/-! ## Stores and read-modify-writes -/

/-- A sequence that writes and answers a next state. -/
theorem endWrite_next {r : Except Fault State} {t : State} (h : endWrite r = .next t) :
    ∃ u, r = .ok u ∧ t = atBoundary u := by
  cases r with
  | ok u => cases h; exact ⟨u, rfl, rfl⟩
  | error f => cases h

theorem except_bind_ok {r : Except Fault State} {k : State → Except Fault State} {t : State} (h : r.bind k = .ok t) :
    ∃ u, r = .ok u ∧ k u = .ok t := by
  cases r with
  | ok u => exact ⟨u, rfl, h⟩
  | error f => cases h

theorem except_map_ok {r : Except Fault State} {k : State → State} {t : State} (h : r.map k = .ok t) :
    ∃ u, r = .ok u ∧ t = k u := by
  cases r with
  | ok u => cases h; exact ⟨u, rfl, rfl⟩
  | error f => cases h

/-- An instruction that answers a next state has run its table. -/
theorem run_of_exec {i : Instr} {p : Prog} (hp : (instrEntry i).prog? = some p) {s t : State}
    (h : exec i s = .next t) : p.run (startLatches i) s = .next t := by
  rw [exec_eq_run] at h
  cases he : instrEntry i with
  | documented p' => rw [he] at h hp; cases hp; exact h
  | annex p' =>
    rw [he] at h hp
    cases hp
    unfold OpEntry.run annexed at h
    dsimp only at h
    split at h
    · cases h
    · exact h
  | unstable => rw [he] at h; cases h

/-- Every cell of `t` but the one that the mode's address names reads as in `s`. -/
def OnlyAddressed (md : Mode) (x : Addr) (s t : State) : Prop :=
  ∀ n, s.ramCell (md.address x s).1 ≠ some n → Memory.read t.mem n = Memory.read s.mem n

/-- A write at the resolved address, after the resolution and other reads. -/
theorem busWrite_onlyAddressed {md : Mode} {x : Addr} {s u t : State} {k : Nat} {v : Byte} (hu : ReadsOnly k s u)
    (ht : busWrite (md.address x s).1 v u = .ok t) : OnlyAddressed md x s t := fun n hn => by
  rw [busWrite_read_other ht (by rwa [hu.ramCell]), hu.mem]

/-- A way to make a table from an opcode byte and a mode whose run writes at the mode's address alone. -/
def StoresAtAddress (mk : Byte → Mode → Prog) : Prop :=
  ∀ ir md x s t, md ≠ .imm → (mk ir md).run (operandLatches x) s = .next t → OnlyAddressed md x s t

/-- The write class (R132). -/
theorem writeProg_storesAtAddress (reg : State → Byte) : StoresAtAddress fun ir md => writeProg ir md reg := by
  intro ir md x s t hmd h
  rw [writeProg_run ir hmd] at h
  obtain ⟨u, hu, rfl⟩ := endWrite_next h
  exact fun n hn => busWrite_onlyAddressed (address_reads md x s) hu n hn

/-- The read-modify-write class (R133), whose operation leaves memory alone: both writes are at the address. -/
theorem rmwProg_storesAtAddress (f : RmwOp) (hf : ∀ m s, (f m s).2.mem = s.mem) :
    StoresAtAddress fun ir md => rmwProg ir md f := by
  intro ir md x s t hmd h n hn
  rw [rmwProg_run ir hmd] at h
  obtain ⟨_, hu, rfl⟩ := endWrite_next h
  obtain ⟨w, hold, hu⟩ := except_bind_ok hu
  obtain ⟨v, hnew, rfl⟩ := except_map_ok hu
  have hreads := (address_reads md x s).trans (.read (md.address x s).1 _)
  have hcell : w.ramCell (md.address x s).1 ≠ some n := by rwa [busWrite_ramCell hold, hreads.ramCell]
  calc Memory.read (f _ v).2.mem n = Memory.read v.mem n := by rw [hf]
    _ = Memory.read w.mem n := busWrite_read_other hnew hcell
    _ = Memory.read s.mem n := busWrite_onlyAddressed hreads hold n hn

/-- The bytes of a form put its operand into the latches: of a one-byte operand the low byte alone, which is all that the
mode looks at (R91). -/
theorem startLatches_of_encode {i : Instr} {op : Byte} {md : Mode} {x : Addr} (hmd : md ≠ .imm)
    (hencode : encode i = op :: md.bytes x) (hfetch : fetchedOperands op = md.operandBytes) (s : State) :
    ∃ y, startLatches i = operandLatches y ∧ md.address y s = md.address x s := by
  unfold startLatches opByte
  rw [hencode, List.headD_cons, List.tail_cons, hfetch]
  by_cases hone : md.operandBytes = 1
  · refine ⟨zeroPage (loByte x), ?_, address_loByte hone hmd x s⟩
    simp [Mode.bytes, hone, operandBytes, operandLatches, zeroPage, Latches.empty]
  · have htwo : md.operandBytes = 2 := by
      cases md with
      | imm | zp | zpx | zpy | izx | izy => exact absurd rfl hone
      | abs | abx | aby => rfl
    refine ⟨x, ?_, rfl⟩
    simp [Mode.bytes, htwo, operandBytes, operandLatches]

/-- Forms that are encoded by their opcode byte and mode, and whose tables are all made in one way. -/
theorem forms_onlyAddressed {forms : List Entry} {mk : Byte → Mode → Prog} (hmk : StoresAtAddress mk)
    (hmode : forms.all (fun e => e.mode != .imm && fetchedOperands e.op == e.mode.operandBytes) = true)
    (htable : forms.map (fun e x => (encode (e.instr x), (instrEntry (e.instr x)).prog?)) =
      forms.map (fun e x => (e.op :: e.mode.bytes x, some (mk e.op e.mode)))) :
    ∀ e ∈ forms, ∀ (x : Addr) (s t : State), exec (e.instr x) s = .next t → OnlyAddressed e.mode x s t := by
  intro e he x s t h
  obtain ⟨hmd, hfetch⟩ := Bool.and_eq_true_iff.mp (List.all_eq_true.mp hmode e he)
  rw [bne_iff_ne] at hmd
  rw [beq_iff_eq] at hfetch
  obtain ⟨hencode, hprog⟩ := Prod.mk.inj (congrFun (List.map_inj_left.mp htable e he) x)
  obtain ⟨y, hlatches, haddress⟩ := startLatches_of_encode hmd hencode hfetch s
  have hrun := run_of_exec hprog h
  rw [hlatches] at hrun
  have hstore := hmk _ _ y s t hmd hrun
  unfold OnlyAddressed at hstore ⊢
  rwa [haddress] at hstore

/-- Every form of a store or a read-modify-write writes at the address of its mode alone (R132, R133). -/
theorem storeForms_onlyAddressed : ∀ e ∈ staForms ++ stxForms ++ styForms ++ saxForms ++ incForms ++ decForms ++
      aslForms ++ lsrForms ++ rolForms ++ rorForms ++ sloForms ++ rlaForms ++ sreForms ++ rraForms ++ dcpForms ++
      iscForms,
    ∀ (x : Addr) (s t : State), exec (e.instr x) s = .next t → OnlyAddressed e.mode x s t := by
  simp only [List.forall_mem_append]
  refine ⟨⟨⟨⟨⟨⟨⟨⟨⟨⟨⟨⟨⟨⟨⟨?sta, ?stx⟩, ?sty⟩, ?sax⟩, ?inc⟩, ?dec⟩, ?asl⟩, ?lsr⟩, ?rol⟩, ?ror⟩, ?slo⟩, ?rla⟩, ?sre⟩, ?rra⟩, ?dcp⟩,
    ?isc⟩
  case sta => exact forms_onlyAddressed (writeProg_storesAtAddress State.A) rfl rfl
  case stx => exact forms_onlyAddressed (writeProg_storesAtAddress State.X) rfl rfl
  case sty => exact forms_onlyAddressed (writeProg_storesAtAddress State.Y) rfl rfl
  case sax => exact forms_onlyAddressed (writeProg_storesAtAddress valSax) rfl rfl
  case inc => exact forms_onlyAddressed (rmwProg_storesAtAddress opInc fun _ _ => rfl) rfl rfl
  case dec => exact forms_onlyAddressed (rmwProg_storesAtAddress opDec fun _ _ => rfl) rfl rfl
  case asl => exact forms_onlyAddressed (rmwProg_storesAtAddress (shiftMemory shiftLeft) fun _ _ => rfl) rfl rfl
  case lsr => exact forms_onlyAddressed (rmwProg_storesAtAddress (shiftMemory shiftRight) fun _ _ => rfl) rfl rfl
  case rol => exact forms_onlyAddressed (rmwProg_storesAtAddress (shiftMemory rotateLeft) fun _ _ => rfl) rfl rfl
  case ror => exact forms_onlyAddressed (rmwProg_storesAtAddress (shiftMemory rotateRight) fun _ _ => rfl) rfl rfl
  case slo => exact forms_onlyAddressed (rmwProg_storesAtAddress opSlo fun _ _ => rfl) rfl rfl
  case rla => exact forms_onlyAddressed (rmwProg_storesAtAddress opRla fun _ _ => rfl) rfl rfl
  case sre => exact forms_onlyAddressed (rmwProg_storesAtAddress opSre fun _ _ => rfl) rfl rfl
  case rra => exact forms_onlyAddressed (rmwProg_storesAtAddress opRra fun _ _ => rfl) rfl rfl
  case dcp => exact forms_onlyAddressed (rmwProg_storesAtAddress opDcp fun _ _ => rfl) rfl rfl
  case isc => exact forms_onlyAddressed (rmwProg_storesAtAddress opIsc fun _ _ => rfl) rfl rfl

/-! ## Pushes -/

/-- A sequence that ends in pushes and what leaves memory alone writes where it pushes (R23): `u` is the state before the
pushes, with the memory and the stack pointer of `s`. -/
theorem pushes_read_other {vs : List Byte} {s u t : State} {k : State → State}
    (h : endWrite ((pushBytes vs u).map k) = .next t) (hk : ∀ w, (k w).mem = w.mem) (hmem : u.mem = s.mem)
    (hS : u.S = s.S) (hplatform : u.platform = s.platform) {n : Nat}
    (hn : ∀ a ∈ pushAddrs vs.length s.S, s.ramCell a ≠ some n) : Memory.read t.mem n = Memory.read s.mem n := by
  obtain ⟨_, hw, rfl⟩ := endWrite_next h
  obtain ⟨v, hpush, rfl⟩ := except_map_ok hw
  rw [atBoundary_mem, hk, pushBytes_read_other hpush fun a ha => ?_, hmem]
  rw [ramCell_congr hplatform]
  exact hn a (hS ▸ ha)

/-- `PHA` and `PHP` (R240, R241). -/
theorem pushTable_read_other {v : State → Byte} {ir : Byte} {s t : State}
    (h : (oneByteProg ir (pushTable v)).exec1 s = .next t) {n : Nat} (hn : s.ramCell (stackAddr s.S) ≠ some n) :
    Memory.read t.mem n = Memory.read s.mem n := by
  rw [oneByteProg_exec1, pushTable_run, close_afterPushes] at h
  have hread := ReadsOnly.dummy s.PC s
  exact pushes_read_other h (fun _ => rfl) hread.mem hread.S hread.platform (List.forall_mem_singleton.mpr hn)

/-- `JSR` (R231). -/
theorem jsr_read_other {a : Addr} {s t : State} (h : exec (.jsr a) s = .next t) {n : Nat}
    (hhi : s.ramCell (stackAddr s.S) ≠ some n) (hlo : s.ramCell (stackAddr (s.S - 1)) ≠ some n) :
    Memory.read t.mem n = Memory.read s.mem n := by
  have hrun : exec (.jsr a) s = close (.op 0x20#8) 7 (runCycles callCycles { Latches.empty with lo := loByte a } s) := rfl
  rw [hrun, callCycles_run, close_afterPushes] at h
  have hread := ReadsOnly.dummy (stackAddr s.S) s
  exact pushes_read_other h (fun _ => busRead_mem _ _) hread.mem hread.S hread.platform
    (List.forall_mem_cons.mpr ⟨hhi, List.forall_mem_singleton.mpr hlo⟩)

theorem throughVector_mem (vec : Addr) (s : State) : (throughVector vec s).mem = s.mem := by
  obtain ⟨_, _, t, hread, heq, _⟩ := throughVector_reads vec s
  rw [heq]
  exact hread.mem

/-- `BRK` (R252). -/
theorem brk_read_other {s t : State} (h : exec .brk s = .next t) {n : Nat}
    (hhi : s.ramCell (stackAddr s.S) ≠ some n) (hlo : s.ramCell (stackAddr (s.S - 1)) ≠ some n)
    (hp : s.ramCell (stackAddr (s.S - 2)) ≠ some n) : Memory.read t.mem n = Memory.read s.mem n := by
  have hrun : exec .brk s = close (.op 0x00#8) 8 (runCycles (paddingCycle :: entryCycles true irqVector) Latches.empty s) :=
    rfl
  rw [hrun, brkCycles_run, close_afterPushes] at h
  have hread := ReadsOnly.dummy s.PC s
  have hslot : s.S - 1 - 1 = s.S - 2 := BitVec.sub_sub ..
  refine pushes_read_other h (throughVector_mem irqVector) hread.mem hread.S hread.platform
    (List.forall_mem_cons.mpr ⟨hhi, List.forall_mem_cons.mpr ⟨hlo, List.forall_mem_singleton.mpr ?_⟩⟩)
  rwa [hslot]

/-- Settles O60: by what an instruction writes, nothing, one address, or its stack slots. -/
theorem memoryFrame : Obligations.MemoryFrame := by
  unfold Obligations.MemoryFrame
  refine ⟨fun i s t h hi => ?_, storeForms_onlyAddressed, fun s t h n hn => ?_,
    fun a s t h n hhi hlo => jsr_read_other h hhi hlo, fun s t h n hhi hlo hp => brk_read_other h hhi hlo hp⟩
  · obtain ⟨_, hmem, hdq, hown⟩ := exec_unwritten h hi
    exact ⟨fun n => by rw [hmem], hdq, hown⟩
  · rcases h with h | h
    · exact pushTable_read_other (v := State.A) (ir := 0x48#8) h hn
    · exact pushTable_read_other (v := fun s => pack true s.P) (ir := 0x08#8) h hn

end Sys2Proof.Machine
end

section
/-! The read, write and implied classes, once each (R117, R131, R132, R136): what an instruction does whose table is made
from its mode and an operation, with its cycle count, given its encoding and the equation of its `exec`. The loads, stores
and transfers of 41_load_store_transfer.md follow form by form. -/

namespace Sys2Proof.Machine

open Sys2Proof.Spec

/-! ## A table and a mode's operand bytes -/

/-- A table run from the operand bytes of a mode, in format `F2` or `F3` (R91). -/
def Prog.execAt (p : Prog) (md : Mode) (x : Addr) (s : State) : Out :=
  if md.operandBytes = 1 then p.exec2 (loByte x) s else p.exec3 x s

theorem readProg_execAt (ir : Byte) (md : Mode) (op : ReadOp) (x : Addr) (s : State) :
    (readProg ir md op).execAt md x s = .next (atBoundary (op (md.operand x s).1 (md.operand x s).2)) := by
  unfold Prog.execAt
  split
  · next hone => exact readProg_exec2 ir hone op x s
  · exact readProg_exec3 ir md op x s

theorem writeProg_execAt (ir : Byte) {md : Mode} (hmd : md ≠ .imm) (reg : State → Byte) (x : Addr) (s : State) :
    (writeProg ir md reg).execAt md x s =
      endWrite (busWrite (md.address x s).1 (reg (md.address x s).2) (md.address x s).2) := by
  unfold Prog.execAt
  split
  · next hone => exact writeProg_exec2 ir hone hmd reg x s
  · exact writeProg_exec3 ir hmd reg x s

/-! ## Cycle counts -/

/-- How many cycles of correction the write and rmw classes spend (R125, R126, R128). -/
def Mode.corrections : Mode → Nat
  | .imm | .zp | .zpx | .zpy | .abs | .izx => 0
  | .abx | .aby | .izy => 1

theorem index_toList_length (md : Mode) (s : State) : (md.index s).toList.length = md.corrections := by
  cases md <;> rfl

/-- The cycles of the read class with no page crossed: the fetches, the base's reads, and the operand's own (R131). -/
def Mode.readCycleCount (md : Mode) : Nat :=
  1 + md.operandBytes + md.baseReads + if md = .imm then 0 else 1

/-- The cycles of the write class: the fetches, the reads that resolve the address, and the write (R132). -/
def Mode.writeCycleCount (md : Mode) : Nat :=
  1 + md.operandBytes + md.baseReads + md.corrections + 1

/-! ## The read class -/

theorem reads_of_execAt {e : Entry} {eff : ReadOp} {x : Addr} {s : State}
    (hencode : encode (e.instr x) = e.op :: e.mode.bytes x)
    (hexec : exec (e.instr x) s = (readProg e.op e.mode eff).execAt e.mode x s)
    (hcycles : e.cycles = e.mode.readCycleCount) (htrace : ∀ m t, (eff m t).trace = t.trace) : Reads e eff x s := by
  refine ⟨hencode, hexec.trans (readProg_execAt ..), ?_⟩
  have hlength := (operand_reads e.mode x s).trace_length
  rw [htrace, hlength, hcycles, Mode.readCycleCount]
  omega

/-- Forms of the read class whose encodings, tables and cycle counts are those of their modes. -/
theorem forms_read {forms : List Entry} {eff : ReadOp}
    (htable : forms.map (fun e x s => (encode (e.instr x), exec (e.instr x) s)) =
      forms.map (fun e x s => (e.op :: e.mode.bytes x, (readProg e.op e.mode eff).execAt e.mode x s)))
    (hcycles : forms.map (fun e => e.cycles) = forms.map (fun e => e.mode.readCycleCount))
    (htrace : ∀ m t, (eff m t).trace = t.trace) (x : Addr) (s : State) : ∀ e ∈ forms, Reads e eff x s := by
  intro e he
  have hform := List.map_inj_left.mp htable e he
  obtain ⟨hencode, hexec⟩ := Prod.mk.inj (congrFun₂ hform x s)
  exact reads_of_execAt hencode hexec (List.map_inj_left.mp hcycles e he) htrace

/-! ## The write class -/

/-- A byte that bus reads leave alone, as a store's is (R132). -/
def RegisterByte (reg : State → Byte) : Prop := ∀ {n s t}, ReadsOnly n s t → reg t = reg s

theorem writes_of_execAt {e : Entry} {reg : State → Byte} {x : Addr} {s : State} (hmode : e.mode ≠ .imm)
    (hencode : encode (e.instr x) = e.op :: e.mode.bytes x)
    (hexec : exec (e.instr x) s = (writeProg e.op e.mode reg).execAt e.mode x s)
    (hcycles : e.cycles = e.mode.writeCycleCount) (hreg : RegisterByte reg) : Writes e reg x s := by
  have hread := address_reads e.mode x s
  rw [writeProg_execAt e.op hmode, hreg hread] at hexec
  refine ⟨hencode, hexec, fun haccepts => ?_⟩
  obtain ⟨t, ht⟩ := busWrite_accepts (reg s) ((hread.accepts _).trans haccepts)
  rw [ht] at hexec
  refine ⟨t, ht, hexec, ?_, (busWrite_A ht).trans hread.A, (busWrite_X ht).trans hread.X,
    (busWrite_Y ht).trans hread.Y, (busWrite_S ht).trans hread.S, (busWrite_PC ht).trans hread.PC,
    (busWrite_P ht).trans hread.P⟩
  rw [busWrite_trace ht, List.length_append, List.length_singleton, hread.trace_length, index_toList_length, hcycles,
    Mode.writeCycleCount]
  omega

/-- Forms of the write class whose encodings, tables and cycle counts are those of their modes. -/
theorem forms_write {forms : List Entry} {reg : State → Byte}
    (htable : forms.map (fun e x s => (encode (e.instr x), exec (e.instr x) s)) =
      forms.map (fun e x s => (e.op :: e.mode.bytes x, (writeProg e.op e.mode reg).execAt e.mode x s)))
    (hcycles : forms.map (fun e => e.cycles) = forms.map (fun e => e.mode.writeCycleCount))
    (hmode : forms.all (fun e => e.mode != .imm) = true) (hreg : RegisterByte reg) (x : Addr) (s : State) :
    ∀ e ∈ forms, Writes e reg x s := by
  intro e he
  have hform := List.map_inj_left.mp htable e he
  obtain ⟨hencode, hexec⟩ := Prod.mk.inj (congrFun₂ hform x s)
  have hne := bne_iff_ne.mp (List.all_eq_true.mp hmode e he)
  exact writes_of_execAt hne hencode hexec (List.map_inj_left.mp hcycles e he) hreg

/-! ## The implied class -/

/-- An instruction of the implied class: its table is one dummy read of `PC` and the operation (R117). -/
theorem implied_of_exec {i : Instr} {op : Byte} {eff : State → State} {s : State} (hencode : encode i = [op])
    (hexec : exec i s = (impliedProg op eff).exec1 s) (htrace : ∀ t, (eff t).trace = t.trace) : Implied i op eff s :=
  ⟨hencode, hexec.trans (impliedProg_run ..), _, (htrace _).trans (busRead_trace s.PC s)⟩

/-! ## Loads, stores and transfers -/

/-- Settles O19: the forms of a load are of the read class, with the load as their operation. -/
theorem loads : Obligations.Loads := by
  unfold Obligations.Loads
  intro x s
  refine ⟨?lda, ?ldx, ?ldy⟩
  case lda => exact forms_read (eff := opLda) rfl rfl (fun _ _ => rfl) x s
  case ldx => exact forms_read (eff := opLdx) rfl rfl (fun _ _ => rfl) x s
  case ldy => exact forms_read (eff := opLdy) rfl rfl (fun _ _ => rfl) x s

/-- Settles O20: the forms of a store are of the write class, with a register as the byte stored. -/
theorem stores : Obligations.Stores := by
  unfold Obligations.Stores
  intro x s
  refine ⟨?sta, ?stx, ?sty⟩
  case sta => exact forms_write (reg := State.A) rfl rfl rfl (fun h => h.A) x s
  case stx => exact forms_write (reg := State.X) rfl rfl rfl (fun h => h.X) x s
  case sty => exact forms_write (reg := State.Y) rfl rfl rfl (fun h => h.Y) x s

/-- Settles O21: a transfer is of the implied class, with the copy between registers as its operation. -/
theorem transfers : Obligations.Transfers := by
  unfold Obligations.Transfers
  intro s
  refine ⟨?tax, ?tay, ?txa, ?tya, ?tsx, ?txs⟩
  case tax => exact implied_of_exec (eff := opTax) rfl rfl fun _ => rfl
  case tay => exact implied_of_exec (eff := opTay) rfl rfl fun _ => rfl
  case txa => exact implied_of_exec (eff := opTxa) rfl rfl fun _ => rfl
  case tya => exact implied_of_exec (eff := opTya) rfl rfl fun _ => rfl
  case tsx => exact implied_of_exec (eff := opTsx) rfl rfl fun _ => rfl
  case txs => exact implied_of_exec (eff := opTxs) rfl rfl fun _ => rfl

end Sys2Proof.Machine
end

section
/-! Logic, arithmetic, compares, increments and shifts (42_alu.md): the read-modify-write class once (R133),
the adders in exact arithmetic (R181 to R184), and from these the instructions form by form. -/

namespace Sys2Proof.Machine

open Sys2Proof.Spec

/-! ## The read-modify-write class -/

theorem rmwProg_execAt (ir : Byte) {md : Mode} (hmd : md ≠ .imm) (f : RmwOp) (x : Addr) (s : State) :
    (rmwProg ir md f).execAt md x s =
      (let e := md.address x s
       let r := busRead e.1 e.2
       endWrite ((busWrite e.1 r.1 r.2).bind fun t => (busWrite e.1 (f r.1 t).1 t).map fun u => (f r.1 u).2)) := by
  unfold Prog.execAt
  split
  next hone => exact rmwProg_exec2 ir hone hmd f x s
  next => exact rmwProg_exec3 ir hmd f x s

/-- The cycles of the rmw class: the fetches, the reads that resolve the address, and its three accesses (R133). -/
def Mode.rmwCycleCount (md : Mode) : Nat :=
  1 + md.operandBytes + md.baseReads + md.corrections + 3

/-- The first write leaves the flags alone, so the new value is computed from those before it (R133). -/
theorem writeBack_bind {f : RmwOp} {new : Byte → Flags → Byte} {eff : Byte → State → State}
    (hop : ∀ m t, f m t = (new m t.P, eff m t)) (a : Addr) (m : Byte) (s : State) :
    ((busWrite a m s).bind fun t => (busWrite a (f m t).1 t).map fun u => (f m u).2) =
      (busWrite a m s).bind fun t => (busWrite a (new m s.P) t).map (eff m) := by
  simp only [hop]
  cases ht : busWrite a m s with
  | error _ => rfl
  | ok t => simp only [Except.bind, busWrite_P ht]

/-- An address that accepts a write accepts a second one after it. -/
theorem writeTwice_accepts {a : Addr} {s : State} (haccepts : s.accepts a = true) (v w : Byte) :
    ∃ t u, busWrite a v s = .ok t ∧ busWrite a w t = .ok u ∧ u.trace.length = s.trace.length + 2 := by
  obtain ⟨t, ht⟩ := busWrite_accepts v haccepts
  obtain ⟨u, hu⟩ := busWrite_accepts w ((busWrite_keeps_accepts ht a).trans haccepts)
  exact ⟨t, u, ht, hu, by rw [busWrite_trace hu, busWrite_trace ht]; simp⟩

theorem modifies_of_execAt {e : Entry} {f : RmwOp} {new : Byte → Flags → Byte} {eff : Byte → State → State} {x : Addr}
    {s : State} (hmode : e.mode ≠ .imm) (hencode : encode (e.instr x) = e.op :: e.mode.bytes x)
    (hexec : exec (e.instr x) s = (rmwProg e.op e.mode f).execAt e.mode x s)
    (hcycles : e.cycles = e.mode.rmwCycleCount) (hop : ∀ m t, f m t = (new m t.P, eff m t))
    (htrace : ∀ m t, (eff m t).trace = t.trace) : Modifies e new eff x s := by
  have hread := (address_reads e.mode x s).trans (.read (e.mode.address x s).1 (e.mode.address x s).2)
  rw [rmwProg_execAt e.op hmode] at hexec
  simp only [writeBack_bind hop, hread.P] at hexec
  refine ⟨hencode, hexec, fun haccepts => ?_⟩
  obtain ⟨t, u, ht, hu, hlength⟩ := writeTwice_accepts ((hread.accepts _).trans haccepts)
    (busRead (e.mode.address x s).1 (e.mode.address x s).2).1
    (new (busRead (e.mode.address x s).1 (e.mode.address x s).2).1 s.P)
  rw [ht, Except.bind, hu] at hexec
  refine ⟨t, u, ht, hu, hexec, ?_⟩
  rw [htrace, hlength, hread.trace_length, index_toList_length, hcycles, Mode.rmwCycleCount]
  omega

/-- Forms of the rmw class whose encodings, tables and cycle counts are those of their modes. -/
theorem forms_modify {forms : List Entry} {f : RmwOp} {new : Byte → Flags → Byte} {eff : Byte → State → State}
    (htable : forms.map (fun e x s => (encode (e.instr x), exec (e.instr x) s)) =
      forms.map (fun e x s => (e.op :: e.mode.bytes x, (rmwProg e.op e.mode f).execAt e.mode x s)))
    (hcycles : forms.map (fun e => e.cycles) = forms.map (fun e => e.mode.rmwCycleCount))
    (hmode : forms.all (fun e => e.mode != .imm) = true) (hop : ∀ m t, f m t = (new m t.P, eff m t))
    (htrace : ∀ m t, (eff m t).trace = t.trace) (x : Addr) (s : State) : ∀ e ∈ forms, Modifies e new eff x s := by
  intro e he
  have hform := List.map_inj_left.mp htable e he
  obtain ⟨hencode, hexec⟩ := Prod.mk.inj (congrFun₂ hform x s)
  have hne := bne_iff_ne.mp (List.all_eq_true.mp hmode e he)
  exact modifies_of_execAt hne hencode hexec (List.map_inj_left.mp hcycles e he) hop htrace

/-! ## The shifts and rotations by their bits -/

/-- The carry as a byte (R15). -/
theorem setWidth_ofBool (b : Bool) : (BitVec.ofBool b).setWidth 8 = bit b := by
  cases b <;> rfl

/-- R202: a bit 0 is shifted in at the top, so `N` is 0. -/
theorem shiftRight_eq (v : Byte) (p : Flags) :
    shiftRight v p = (v >>> 1, { p with C := v.getLsbD 0, N := false, Z := v >>> 1 == 0#8 }) := by
  simp [shiftRight, setNZ]

/-- R203: `N` is the bit below the one shifted out. -/
theorem rotateLeft_eq (v : Byte) (p : Flags) :
    rotateLeft v p = ((v <<< 1) ||| bit p.C,
      { p with C := v.getLsbD 7, N := v.getLsbD 6, Z := (v <<< 1) ||| bit p.C == 0#8 }) := by
  have hN : ((v <<< 1) ||| bit p.C).getLsbD 7 = v.getLsbD 6 := by
    cases hC : p.C <;> simp [bit]
  rw [rotateLeft, setWidth_ofBool, setNZ, hN]

/-- R204: `N` is the old carry. -/
theorem rotateRight_eq (v : Byte) (p : Flags) :
    rotateRight v p = ((v >>> 1) ||| (bit p.C <<< 7),
      { p with C := v.getLsbD 0, N := p.C, Z := (v >>> 1) ||| (bit p.C <<< 7) == 0#8 }) := by
  have hN : ((v >>> 1) ||| (bit p.C <<< 7)).getLsbD 7 = p.C := by
    cases hC : p.C <;> simp [bit]
  rw [rotateRight, setWidth_ofBool, setNZ, hN]

/-! ## The sign bit and the overflow formula -/

theorem getLsbD_seven_iff (v : Byte) : v.getLsbD 7 = true ↔ 128 ≤ v.toNat := by
  rw [show v.getLsbD 7 = v.msb from v.msb_eq_getLsbD_last.symm, BitVec.msb_eq_decide, decide_eq_true_iff]

/-- The overflow formula of R181 and R182: the operands' signs agree and the result's differs. -/
theorem overflow_iff (a m r : Byte) : ((~~~(a ^^^ m) &&& (a ^^^ r) &&& 0x80#8) != 0#8) = true ↔
    (a.toNat < 128 ↔ m.toNat < 128) ∧ ¬(a.toNat < 128 ↔ r.toNat < 128) := by
  have hmask : ∀ v : Byte, ((v &&& 0x80#8) != 0#8) = v.getLsbD 7 := fun v => by
    rw [show (0x80#8) = BitVec.twoPow 8 7 from rfl, BitVec.and_twoPow]
    cases v.getLsbD 7 <;> rfl
  have hbits : (~~~(a ^^^ m) &&& (a ^^^ r)).getLsbD 7 =
      (!(a.getLsbD 7 ^^ m.getLsbD 7) && (a.getLsbD 7 ^^ r.getLsbD 7)) := by simp
  rw [hmask, hbits]
  simp only [← not_le, ← getLsbD_seven_iff]
  cases a.getLsbD 7 <;> cases m.getLsbD 7 <;> cases r.getLsbD 7 <;> decide

/-! ## The binary adder in exact arithmetic -/

theorem adcBin_r_toNat (a m : Byte) (c : Bool) : (adcBin a m c).r.toNat = (a.toNat + m.toNat + c.toNat) % 256 :=
  BitVec.toNat_ofNat _ _

theorem adcBin_C_iff (a m : Byte) (c : Bool) : (adcBin a m c).C = true ↔ 255 < a.toNat + m.toNat + c.toNat :=
  decide_eq_true_iff

theorem adcBin_V_iff (a m : Byte) (c : Bool) : (adcBin a m c).V = true ↔
    a.toInt + m.toInt + c.toNat < -128 ∨ 127 < a.toInt + m.toInt + c.toNat := by
  have hr := adcBin_r_toNat a m c
  have hc := c.toNat_le
  refine (overflow_iff a m (adcBin a m c).r).trans ?_
  rw [BitVec.toInt_eq_toNat_cond, BitVec.toInt_eq_toNat_cond, hr]
  have ha := a.isLt
  have hm := m.isLt
  split <;> split <;> omega

theorem adcBin_Z_iff (a m : Byte) (c : Bool) : (adcBin a m c).Z = true ↔ (adcBin a m c).r = 0#8 :=
  beq_iff_eq

/-! ## The binary subtraction, by the complement of its operand -/

theorem xor_ff_toNat (m : Byte) : (m ^^^ 0xFF#8).toNat = 255 - m.toNat := by
  rw [show (0xFF#8) = BitVec.allOnes 8 from rfl, BitVec.xor_allOnes, BitVec.toNat_not]

theorem sbcBin_r_toNat (a m : Byte) (c : Bool) :
    ((sbcBin a m c).r.toNat : Int) = ((a.toNat : Int) - m.toNat - (1 - c.toNat)) % 256 := by
  have h := adcBin_r_toNat a (m ^^^ 0xFF#8) c
  rw [xor_ff_toNat] at h
  have hm := m.isLt
  rw [sbcBin, h]
  omega

theorem sbcBin_C_iff (a m : Byte) (c : Bool) :
    (sbcBin a m c).C = true ↔ 0 ≤ (a.toNat : Int) - m.toNat - (1 - c.toNat) := by
  refine (adcBin_C_iff a (m ^^^ 0xFF#8) c).trans ?_
  rw [xor_ff_toNat]
  have hm := m.isLt
  omega

theorem sbcBin_V_iff (a m : Byte) (c : Bool) : (sbcBin a m c).V = true ↔
    a.toInt - m.toInt - (1 - c.toNat) < -128 ∨ 127 < a.toInt - m.toInt - (1 - c.toNat) := by
  have hneg : (m ^^^ 0xFF#8).toInt = -m.toInt - 1 := by
    rw [BitVec.toInt_eq_toNat_cond, BitVec.toInt_eq_toNat_cond, xor_ff_toNat]
    have hm := m.isLt
    split <;> split <;> omega
  refine (adcBin_V_iff a (m ^^^ 0xFF#8) c).trans ?_
  rw [hneg]
  omega

/-- Settles O24: the sum by its carry and its signs; the difference is the sum with the operand complemented. -/
theorem binaryArithmetic : Obligations.BinaryArithmetic := by
  unfold Obligations.BinaryArithmetic
  intro a m c
  refine ⟨?sum, ?difference⟩
  case sum => exact ⟨adcBin_r_toNat a m c, adcBin_C_iff a m c, adcBin_V_iff a m c, rfl, adcBin_Z_iff a m c⟩
  case difference =>
    exact ⟨sbcBin_r_toNat a m c, sbcBin_C_iff a m c, sbcBin_V_iff a m c, rfl, adcBin_Z_iff a (m ^^^ 0xFF#8) c⟩

/-! ## The decimal functions on all operands -/

/-- The sum of R182 before its second correction: nibble by nibble, the low one corrected by 6 from 10 on. -/
def nibbleSum (a m : Byte) (c : Bool) : Nat :=
  let low := a.toNat % 16 + m.toNat % 16 + c.toNat
  (a.toNat / 16 + m.toNat / 16) * 16 + (if low < 10 then low else (low + 6) % 16 + 16)

/-- The difference of R184 before its second correction: nibble by nibble, the low one corrected on a borrow. -/
def nibbleDiff (a m : Byte) (c : Bool) : Int :=
  let low : Int := (a.toNat % 16 : Nat) - (m.toNat % 16 : Nat) - (1 - c.toNat)
  ((a.toNat / 16 : Nat) - (m.toNat / 16 : Nat)) * 16 + (if low < 0 then (low - 6) % 16 - 16 else low)

/-- `adc_dec` from the sum of the nibbles (R182). -/
theorem adcDec_eq (a m : Byte) (c : Bool) : adcDec a m c =
    (let sum := nibbleSum a m c
     let s := if 0xA0 ≤ sum then sum + 0x60 else sum
     { r := BitVec.ofNat 8 s
       C := 0x100 ≤ s
       V := (~~~(a ^^^ m) &&& (a ^^^ BitVec.ofNat 8 sum) &&& 0x80#8) != 0#8
       N := (BitVec.ofNat 8 sum).getLsbD 7
       Z := BitVec.ofNat 8 (a.toNat + m.toNat + c.toNat) == 0#8 }) := by
  have hlow (n : Nat) : (if 0x0A ≤ n then (n + 0x06) % 16 + 0x10 else n) = if n < 10 then n else (n + 6) % 16 + 16 := by
    split <;> split <;> omega
  unfold adcDec nibbleSum
  simp only [hlow, Nat.add_mul]

theorem adcDec_r_toNat (a m : Byte) (c : Bool) : (adcDec a m c).r.toNat =
    (if nibbleSum a m c < 0xA0 then nibbleSum a m c else nibbleSum a m c + 0x60) % 256 := by
  rw [adcDec_eq]
  simp only [BitVec.toNat_ofNat]
  split <;> split <;> omega

theorem adcDec_C_iff (a m : Byte) (c : Bool) : (adcDec a m c).C = true ↔ 0xA0 ≤ nibbleSum a m c := by
  rw [adcDec_eq, decide_eq_true_iff]
  split <;> omega

theorem adcDec_N_iff (a m : Byte) (c : Bool) : (adcDec a m c).N = true ↔ 128 ≤ nibbleSum a m c % 256 := by
  rw [adcDec_eq, getLsbD_seven_iff, BitVec.toNat_ofNat]

theorem adcDec_V_iff (a m : Byte) (c : Bool) : (adcDec a m c).V = true ↔
    (a.toNat < 128 ↔ m.toNat < 128) ∧ ¬(a.toNat < 128 ↔ nibbleSum a m c % 256 < 128) := by
  rw [adcDec_eq, overflow_iff, BitVec.toNat_ofNat]

theorem adcDec_Z_iff (a m : Byte) (c : Bool) :
    (adcDec a m c).Z = true ↔ (a.toNat + m.toNat + c.toNat) % 256 = 0 := by
  rw [adcDec_eq, beq_iff_eq, BitVec.toNat_eq, BitVec.toNat_ofNat]
  rfl

theorem sbcDec_r_toNat (a m : Byte) (c : Bool) : ((sbcDec a m c).r.toNat : Int) =
    (if nibbleDiff a m c < 0 then nibbleDiff a m c - 0x60 else nibbleDiff a m c) % 256 := by
  have hlow : ((a.toNat % 16 : Nat) - (m.toNat % 16 : Nat) + (c.toNat : Nat) - 1 : Int) =
      (a.toNat % 16 : Nat) - (m.toNat % 16 : Nat) - (1 - c.toNat) := by omega
  have hhigh : ((a.toNat / 16 * 16 : Nat) - (m.toNat / 16 * 16 : Nat) : Int) =
      ((a.toNat / 16 : Nat) - (m.toNat / 16 : Nat)) * 16 := by omega
  unfold sbcDec nibbleDiff
  simp only [hlow, hhigh, BitVec.toNat_ofInt]
  exact Int.toNat_of_nonneg (Int.emod_nonneg _ (by decide))

/-! ## The decimal functions on two-digit decimal operands -/

/-- A byte whose nibbles are the two digits of a number. -/
theorem isBcd_of_digits {r : Byte} {n : Nat} (hn : n < 100) (hr : r.toNat = n / 10 * 16 + n % 10) :
    isBcd r ∧ bcd r = n := by
  unfold isBcd bcd
  omega

theorem nibbleSum_of_isBcd {a m : Byte} (c : Bool) (ha : isBcd a) (hm : isBcd m) :
    nibbleSum a m c = (bcd a + bcd m + c.toNat) / 10 * 16 + (bcd a + bcd m + c.toNat) % 10 := by
  obtain ⟨ha₁, ha₀⟩ := ha
  obtain ⟨hm₁, hm₀⟩ := hm
  have hc := c.toNat_le
  unfold nibbleSum bcd
  dsimp only
  split <;> omega

theorem nibbleDiff_of_isBcd {a m : Byte} (c : Bool) (ha : isBcd a) (hm : isBcd m) :
    nibbleDiff a m c =
      ((bcd a : Int) - bcd m - (1 - c.toNat)) / 10 * 16 + ((bcd a : Int) - bcd m - (1 - c.toNat)) % 10 := by
  obtain ⟨ha₁, ha₀⟩ := ha
  obtain ⟨hm₁, hm₀⟩ := hm
  have hc := c.toNat_le
  unfold nibbleDiff bcd
  dsimp only
  split <;> omega

theorem bcd_lt {a : Byte} (ha : isBcd a) : bcd a < 100 := by
  obtain ⟨ha₁, ha₀⟩ := ha
  unfold bcd
  omega

/-- The second correction of R182 carries the digits of a sum past 99. -/
theorem correctedSum_eq {n : Nat} (hn : n < 200) :
    (if n / 10 * 16 + n % 10 < 0xA0 then n / 10 * 16 + n % 10 else n / 10 * 16 + n % 10 + 0x60) % 256 =
      n % 100 / 10 * 16 + n % 100 % 10 := by
  by_cases hcarry : n < 100
  · rw [if_pos (by omega), Nat.mod_eq_of_lt hcarry]
    omega
  · have hmod : n % 100 = n - 100 := by omega
    have hten : (n - 100) / 10 = n / 10 - 10 := by omega
    rw [if_neg (by omega), hmod, hten]
    omega

/-- The second correction of R184 borrows from the digits of a difference below 0. -/
theorem correctedDiff_eq {n : Int} (hlow : -100 ≤ n) (hhigh : n < 100) :
    (if n / 10 * 16 + n % 10 < 0 then n / 10 * 16 + n % 10 - 0x60 else n / 10 * 16 + n % 10) % 256 =
      n % 100 / 10 * 16 + n % 100 % 10 := by
  by_cases hborrow : n < 0
  · have hmod : n % 100 = n + 100 := by omega
    have hten : (n + 100) / 10 = n / 10 + 10 := by omega
    rw [if_pos (by omega), hmod, hten]
    omega
  · rw [if_neg (by omega), Int.emod_eq_of_lt (not_lt.mp hborrow) hhigh]
    omega

theorem adcDec_of_isBcd {a m : Byte} (c : Bool) (ha : isBcd a) (hm : isBcd m) :
    isBcd (adcDec a m c).r ∧ bcd (adcDec a m c).r = (bcd a + bcd m + c.toNat) % 100 ∧
      ((adcDec a m c).C = true ↔ 100 ≤ bcd a + bcd m + c.toNat) := by
  have ha' := bcd_lt ha
  have hm' := bcd_lt hm
  have hc := c.toNat_le
  have hr := adcDec_r_toNat a m c
  rw [nibbleSum_of_isBcd c ha hm, correctedSum_eq (by omega)] at hr
  obtain ⟨hbcd, hvalue⟩ := isBcd_of_digits (Nat.mod_lt _ (by decide)) hr
  refine ⟨hbcd, hvalue, ?carry⟩
  case carry =>
    rw [adcDec_C_iff, nibbleSum_of_isBcd c ha hm]
    omega

theorem sbcDec_of_isBcd {a m : Byte} (c : Bool) (ha : isBcd a) (hm : isBcd m) :
    isBcd (sbcDec a m c).r ∧ (bcd (sbcDec a m c).r : Int) = ((bcd a : Int) - bcd m - (1 - c.toNat)) % 100 := by
  have ha' := bcd_lt ha
  have hm' := bcd_lt hm
  have hc := c.toNat_le
  have hr := sbcDec_r_toNat a m c
  rw [nibbleDiff_of_isBcd c ha hm, correctedDiff_eq (by omega) (by omega)] at hr
  obtain ⟨n, hn⟩ := Int.eq_ofNat_of_zero_le
    (Int.emod_nonneg ((bcd a : Int) - bcd m - (1 - c.toNat)) (show (100 : Int) ≠ 0 by decide))
  rw [hn] at hr ⊢
  rw [Nat.cast_inj]
  exact isBcd_of_digits (by omega) (by omega)

/-- The order of two-digit decimal numbers is that of the bytes that write them. -/
theorem sbcBin_C_iff_of_isBcd {a m : Byte} (c : Bool) (ha : isBcd a) (hm : isBcd m) :
    (sbcBin a m c).C = true ↔ 0 ≤ (bcd a : Int) - bcd m - (1 - c.toNat) := by
  obtain ⟨ha₁, ha₀⟩ := ha
  obtain ⟨hm₁, hm₀⟩ := hm
  have hc := c.toNat_le
  rw [sbcBin_C_iff]
  unfold bcd
  omega

/-- Settles O25: a decimal operation is one on nibbles, and on decimal operands those are the digits. -/
theorem decimalArithmetic : Obligations.DecimalArithmetic := by
  unfold Obligations.DecimalArithmetic
  refine ⟨fun a m c ha hm => ?digits, fun a m c => ?nibbles⟩
  case digits =>
    obtain ⟨hbcd, hvalue⟩ := sbcDec_of_isBcd c ha hm
    exact ⟨adcDec_of_isBcd c ha hm, hbcd, hvalue, sbcBin_C_iff_of_isBcd c ha hm⟩
  case nibbles =>
    exact ⟨rfl, rfl, ⟨adcDec_r_toNat a m c, adcDec_C_iff a m c, adcDec_N_iff a m c, adcDec_V_iff a m c,
      adcDec_Z_iff a m c⟩, sbcDec_r_toNat a m c, rfl, rfl, rfl, rfl⟩

/-! ## The instructions -/

/-- Settles O22: the forms are of the read class. -/
theorem logic : Obligations.Logic := by
  unfold Obligations.Logic
  intro x s
  refine ⟨?ora, ?and, ?eor, ?bit⟩
  case ora => exact forms_read (eff := opOra) rfl rfl (fun _ _ => rfl) x s
  case and => exact forms_read (eff := opAnd) rfl rfl (fun _ _ => rfl) x s
  case eor => exact forms_read (eff := opEor) rfl rfl (fun _ _ => rfl) x s
  case bit => exact forms_read (eff := opBit) rfl rfl (fun _ _ => rfl) x s

/-- Settles O23: the forms are of the read class, with the addition or subtraction that `D` selects as their operation. -/
theorem addSubtract : Obligations.AddSubtract := by
  unfold Obligations.AddSubtract
  intro x s
  refine ⟨?adc, ?sbc⟩
  case adc => exact forms_read (eff := opAdc) rfl rfl (fun _ _ => rfl) x s
  case sbc => exact forms_read (eff := opSbc) rfl rfl (fun _ _ => rfl) x s

/-- Settles O26: the forms are of the read class, with the compare of a register as their operation. -/
theorem compares : Obligations.Compares := by
  unfold Obligations.Compares
  intro x s
  refine ⟨?cmp, ?cpx, ?cpy⟩
  case cmp => exact forms_read (eff := opCmp) rfl rfl (fun _ _ => rfl) x s
  case cpx => exact forms_read (eff := opCpx) rfl rfl (fun _ _ => rfl) x s
  case cpy => exact forms_read (eff := opCpy) rfl rfl (fun _ _ => rfl) x s

/-- Settles O27: the forms are of the rmw class, with the increment or decrement as their operation. -/
theorem incDecMemory : Obligations.IncDecMemory := by
  unfold Obligations.IncDecMemory
  intro x s
  refine ⟨?inc, ?dec⟩
  case inc => exact forms_modify (f := opInc) rfl rfl rfl (by intros; rfl) (by intros; rfl) x s
  case dec => exact forms_modify (f := opDec) rfl rfl rfl (by intros; rfl) (by intros; rfl) x s

/-- Settles O28: each is of the implied class, with the step of one register as its operation. -/
theorem incDecRegister : Obligations.IncDecRegister := by
  unfold Obligations.IncDecRegister
  intro s
  refine ⟨?inx, ?iny, ?dex, ?dey⟩
  case inx => exact implied_of_exec (eff := opInx) rfl rfl fun _ => rfl
  case iny => exact implied_of_exec (eff := opIny) rfl rfl fun _ => rfl
  case dex => exact implied_of_exec (eff := opDex) rfl rfl fun _ => rfl
  case dey => exact implied_of_exec (eff := opDey) rfl rfl fun _ => rfl

/-- Forms of a shift of memory, by the equation of the shift. -/
theorem forms_shift {forms : List Entry} {f : Byte → Flags → Byte × Flags} {new : Byte → Flags → Byte}
    {flags : Byte → Flags → Flags} (hshift : ∀ v p, f v p = (new v p, flags v p))
    (htable : forms.map (fun e x s => (encode (e.instr x), exec (e.instr x) s)) =
      forms.map (fun e x s => (e.op :: e.mode.bytes x, (rmwProg e.op e.mode (shiftMemory f)).execAt e.mode x s)))
    (hcycles : forms.map (fun e => e.cycles) = forms.map (fun e => e.mode.rmwCycleCount))
    (hmode : forms.all (fun e => e.mode != .imm) = true) (x : Addr) (s : State) :
    ∀ e ∈ forms, Modifies e new (fun m t => { t with P := flags m t.P }) x s :=
  forms_modify htable hcycles hmode (fun m t => by rw [shiftMemory, hshift]) (by intros; rfl) x s

/-- A shift of the accumulator, by the equation of the shift. -/
theorem implied_shift {i : Instr} {op : Byte} {f : Byte → Flags → Byte × Flags} {new : Byte → Flags → Byte}
    {flags : Byte → Flags → Flags} (hshift : ∀ v p, f v p = (new v p, flags v p)) {s : State}
    (hencode : encode i = [op]) (hexec : exec i s = (impliedProg op (shiftA f)).exec1 s) :
    Implied i op (fun t => { t with A := new t.A t.P, P := flags t.A t.P }) s := by
  have hop : shiftA f = fun t => { t with A := new t.A t.P, P := flags t.A t.P } :=
    funext fun t => by rw [shiftA, hshift]
  exact implied_of_exec hencode (hop ▸ hexec) fun _ => rfl

/-- Settles O29: the memory forms are of the rmw class, the accumulator forms of the implied class. -/
theorem shifts : Obligations.Shifts := by
  unfold Obligations.Shifts
  intro x s
  refine ⟨?asl, ?lsr, ?rol, ?ror, ?aslAcc, ?lsrAcc, ?rolAcc, ?rorAcc⟩
  case asl => exact forms_shift (f := shiftLeft) (fun _ _ => rfl) rfl rfl rfl x s
  case lsr => exact forms_shift shiftRight_eq rfl rfl rfl x s
  case rol => exact forms_shift rotateLeft_eq rfl rfl rfl x s
  case ror => exact forms_shift rotateRight_eq rfl rfl rfl x s
  case aslAcc => exact implied_shift (f := shiftLeft) (fun _ _ => rfl) rfl rfl
  case lsrAcc => exact implied_shift shiftRight_eq rfl rfl
  case rolAcc => exact implied_shift rotateLeft_eq rfl rfl
  case rorAcc => exact implied_shift rotateRight_eq rfl rfl

end Sys2Proof.Machine
end

section
/-! Branches, jumps, subroutine call and return (43_control_transfer.md): each cycle table as one equation, and what it
leaves of the registers and of a stack in RAM. -/

namespace Sys2Proof.Machine

open Sys2Proof.Spec

variable {s t u : State} {a : Addr} {v : Byte}

/-! ## Branches -/

theorem branchProg_notTaken (ir : Byte) {cond : Flags → Bool} (d : Byte) (hcond : cond s.P = false) :
    (branchProg ir cond).exec2 d s = .next (atBoundary s) := by
  simp [Prog.exec2, Prog.run, branchProg, hcond]

/-- A taken branch runs cycle 3, and cycle 4 where cycle 3 goes on (R220). -/
theorem branchProg_taken (ir : Byte) {cond : Flags → Bool} (d : Byte) (hcond : cond s.P = true) :
    (branchProg ir cond).exec2 d s = close (.op ir) 5 (runCycles [branchLowCycle, branchHighCycle]
      { Latches.empty with lo := d, ea := s.PC + d.signExtend 16 } s) := by
  simp [Prog.exec2, Prog.run, branchProg, hcond, displacement]

theorem branchCycles_samePage {q : Latches} (hpage : hiByte q.ea = hiByte s.PC) :
    runCycles [branchLowCycle, branchHighCycle] q s = .done { dummyRead s.PC s with PC := q.ea } := by
  simp only [runCycles_cons, branchLowCycle, rd, ← hpage, mkAddr_hiByte_loByte, if_true, andThen_done, dummyRead]

/-- The half-corrected target in `PC` is overwritten, and the second read does not depend on it (R220). -/
theorem branchCycles_otherPage {q : Latches} (hpage : hiByte q.ea ≠ hiByte s.PC) :
    runCycles [branchLowCycle, branchHighCycle] q s =
      .done { dummyRead (mkAddr (hiByte s.PC) (loByte q.ea)) (dummyRead s.PC s) with PC := q.ea } := by
  simp only [runCycles_cons, branchLowCycle, branchHighCycle, rd, if_neg hpage, andThen_more, andThen_done,
    busRead_withPC, dummyRead]

/-- Each branch is encoded and run as its opcode byte and its condition say (R221 to R228). -/
theorem branchForms_table : branchForms.map (fun f d s => (encode (f.2.2 d), exec (f.2.2 d) s)) =
    branchForms.map (fun f d s => ([f.1, d], (branchProg f.1 f.2.1).exec2 d s)) := rfl

/-- Settles O30: by whether the condition holds, and whether the target is in the page of the next instruction. -/
theorem branches : Obligations.Branches := by
  unfold Obligations.Branches
  intro f hf d s
  obtain ⟨hencode, hexec⟩ := Prod.mk.inj (congrFun₂ (List.map_inj_left.mp branchForms_table f hf) d s)
  refine ⟨hencode, fun hcond => ?notTaken, fun hcond hpage => ?samePage, fun hcond hpage => ?otherPage⟩
  case notTaken => exact hexec.trans (branchProg_notTaken f.1 d hcond)
  -- `by exact` has the goal fix the latches before the target's page is compared.
  case samePage => rw [hexec, branchProg_taken f.1 d hcond, branchCycles_samePage (by exact hpage), close_done]
  case otherPage => rw [hexec, branchProg_taken f.1 d hcond, branchCycles_otherPage (by exact hpage), close_done]

/-! ## Jumps -/

theorem exec_jmpAbs_next (a : Addr) (s : State) : exec (.jmpAbs a) s = .next (atBoundary { s with PC := a }) := by
  have hrun : exec (.jmpAbs a) s = .next (atBoundary { s with PC := mkAddr (hiByte a) (loByte a) }) := rfl
  rw [hrun, mkAddr_hiByte_loByte]

theorem exec_jmpInd_next (a : Addr) (s : State) :
    exec (.jmpInd a) s =
      (let lo := busRead a s
       let hi := busRead (mkAddr (hiByte a) (loByte a + 1)) lo.2
       .next (atBoundary { hi.2 with PC := mkAddr hi.1 lo.1 })) := by
  have hrun : exec (.jmpInd a) s =
    (let lo := busRead (mkAddr (hiByte a) (loByte a)) s
     let hi := busRead (mkAddr (hiByte a) (loByte a + 1)) lo.2
     .next (atBoundary { hi.2 with PC := mkAddr hi.1 lo.1 })) := rfl
  rw [hrun, mkAddr_hiByte_loByte]

/-- Settles O31: the operand is put together from the bytes fetched, and the pointer is two reads. -/
theorem jumps : Obligations.Jumps := by
  unfold Obligations.Jumps
  intro a s
  refine ⟨rfl, exec_jmpAbs_next a s, rfl, exec_jmpInd_next a s, fun lo hi hlo hhi => ?pointer⟩
  case pointer =>
    have hexec := exec_jmpInd_next a s
    rw [busRead_of_ramByte hlo] at hexec
    dsimp only at hexec
    rw [busRead_of_ramByte_traced _ hhi] at hexec
    exact ⟨_, hexec, rfl, by simp⟩

/-! ## Bytes of RAM and the stack -/

/-- The byte of RAM at an address depends on memory and on the platform alone. -/
theorem ramByte_congr (hmem : t.mem = s.mem) (hplatform : t.platform = s.platform) (a : Addr) :
    ramByte t a = ramByte s a := by
  unfold ramByte
  rw [ramCell_congr hplatform, hmem]

theorem ReadsOnly.ramByte {n : Nat} (h : ReadsOnly n s t) (a : Addr) : ramByte t a = ramByte s a :=
  ramByte_congr h.mem h.platform a

/-- Reads do not look at `S`. -/
theorem ReadsOnly.withS {n : Nat} (h : ReadsOnly n s t) (sp : Byte) :
    ReadsOnly n { s with S := sp } { t with S := sp } := by
  obtain ⟨c, dv, d, e, hh, tr, rfl, hrest⟩ := h
  exact ⟨c, dv, d, e, hh, tr, rfl, hrest⟩

/-- Reads do not look at `PC`. -/
theorem ReadsOnly.withPC {n : Nat} (h : ReadsOnly n s t) (pc : Addr) :
    ReadsOnly n { s with PC := pc } { t with PC := pc } := by
  obtain ⟨c, dv, d, e, hh, tr, rfl, hrest⟩ := h
  exact ⟨c, dv, d, e, hh, tr, rfl, hrest⟩

/-- A pull after reads is one read more, with `S` one higher (R23). -/
theorem ReadsOnly.pull {n : Nat} (h : ReadsOnly n s t) :
    ReadsOnly (n + 1) { s with S := s.S + 1 } (pullByte t).2 := by
  have hraised := h.withS (s.S + 1)
  rw [← h.S] at hraised ⊢
  exact hraised.trans (pullByte_reads t)

/-- The byte pulled from a slot in RAM. -/
theorem pullByte_of_ramByte (h : ramByte s (stackAddr (s.S + 1)) = some v) : (pullByte s).1 = v :=
  congrArg Prod.fst (busRead_of_ramByte (s := { s with S := s.S + 1 }) h)

/-- A byte of RAM whose cell no push names stays. -/
theorem pushBytes_ramByte_other {vs : List Byte} (h : pushBytes vs s = .ok t) (ha : ramByte s a = some v)
    (hother : ∀ b ∈ pushAddrs vs.length s.S, s.ramCell b ≠ s.ramCell a) : ramByte t a = some v := by
  obtain ⟨n, hcell, hread⟩ := Option.bind_eq_some_iff.mp ha
  rw [ramByte, pushBytes_ramCell h, hcell]
  exact (pushBytes_read_other h fun b hb => hcell ▸ hother b hb).trans hread

/-- The first of a run of pushes is found in its slot, if no later push names that cell of RAM. -/
theorem pushBytes_ramByte_first {vs : List Byte} {n : Nat} (h : pushBytes (v :: vs) s = .ok t)
    (hn : s.ramCell (stackAddr s.S) = some n)
    (hlater : ∀ b ∈ pushAddrs vs.length (s.S - 1), s.ramCell b ≠ some n) : ramByte t (stackAddr s.S) = some v := by
  obtain ⟨u, hu, hrest⟩ := pushBytes_cons h
  have hcell := (busWrite_ramCell hu (stackAddr s.S)).trans hn
  have hfirst : ramByte { u with S := u.S - 1 } (stackAddr s.S) = some v :=
    Option.bind_eq_some_iff.mpr ⟨n, hcell, busWrite_read_same hu hn⟩
  refine pushBytes_ramByte_other hrest hfirst fun b hb => ?_
  rw [busWrite_S hu] at hb
  exact fun heq => hlater b hb ((busWrite_ramCell hu b).symm.trans (heq.trans hcell))

/-- Two pushes to two cells of RAM leave both bytes in their slots. -/
theorem pushBytes_pair_ramByte {w : Byte} {m n : Nat} (h : pushBytes [v, w] s = .ok t)
    (hm : s.ramCell (stackAddr s.S) = some m) (hn : s.ramCell (stackAddr (s.S - 1)) = some n) (hne : m ≠ n) :
    ramByte t (stackAddr s.S) = some v ∧ ramByte t (stackAddr (s.S - 1)) = some w := by
  constructor
  · refine pushBytes_ramByte_first h hm (List.forall_mem_singleton.mpr ?_)
    rw [hn]
    exact fun heq => hne (Option.some.inj heq).symm
  · obtain ⟨u, hu, hrest⟩ := pushBytes_cons h
    rw [← busWrite_S hu] at hn ⊢
    exact pushBytes_ramByte_first (s := { u with S := u.S - 1 }) hrest ((busWrite_ramCell hu _).trans hn)
      (List.forall_mem_nil _)

/-! ## RTS -/

theorem exec_rts_next (s : State) : exec .rts s = .next (atBoundary (returnedSub s)) := by
  rw [exec_rts, execRts, progRts, oneByteProg_exec1, returnSubCycles_run]
  rfl

/-- The dummy reads of `PC` and of the stack with which `RTS` begins (R232). -/
theorem dummyReads_reads (s : State) : ReadsOnly 2 s (dummyRead (stackAddr s.S) (dummyRead s.PC s)) :=
  (ReadsOnly.dummy s.PC s).trans (.dummy (stackAddr s.S) _)

/-- `RTS` is two dummy reads, two pulls, and a dummy read at the address pulled (R232). -/
theorem returnedSub_reads (s : State) :
    ReadsOnly 5 { s with S := s.S + 2, PC := (returnedSub s).PC } (returnedSub s) := by
  have hS : s.S + 2 = s.S + 1 + 1 := (BitVec.add_assoc s.S 1 1).symm
  rw [hS]
  exact (((dummyReads_reads s).pull.pull.withPC _).trans (.dummy _ _)).withPC _

/-- From a stack in RAM, `RTS` goes on after the address it pulls (R232). -/
theorem returnedSub_PC {lo hi : Byte} (hlo : ramByte s (stackAddr (s.S + 1)) = some lo)
    (hhi : ramByte s (stackAddr (s.S + 2)) = some hi) : (returnedSub s).PC = mkAddr hi lo + 1 := by
  have hdummies := dummyReads_reads s
  have hfirst := hdummies.pull
  have hS : s.S + 2 = s.S + 1 + 1 := (BitVec.add_assoc s.S 1 1).symm
  rw [hS] at hhi
  have hlow := pullByte_of_ramByte (v := lo) (by rw [hdummies.ramByte, hdummies.S]; exact hlo)
  have hhigh := pullByte_of_ramByte (v := hi) (by rw [hfirst.ramByte, hfirst.S]; exact hhi)
  rw [returnedSub, hlow, hhigh]

/-! ## JSR -/

theorem exec_jsr_endWrite (a : Addr) (s : State) : exec (.jsr a) s = endWrite (called (loByte a) s) := by
  have hrun : exec (.jsr a) s = close (.op 0x20#8) 7 (runCycles callCycles { Latches.empty with lo := loByte a } s) := rfl
  rw [hrun, callCycles_run, close_afterPushes]
  rfl

/-- The last cycle of `JSR`: `PC` from the byte read at it and the low operand byte (R231). -/
def afterCall (lo : Byte) (u : State) : State := { (busRead u.PC u).2 with PC := mkAddr (busRead u.PC u).1 lo }

/-- `u` is the state of `JSR` after its dummy read and its two pushes (R231). -/
def PushedReturn (s u : State) : Prop :=
  pushBytes [hiByte s.PC, loByte s.PC] (dummyRead (stackAddr s.S) s) = .ok u

theorem exists_pushedReturn (hhi : s.accepts (stackAddr s.S) = true) (hlo : s.accepts (stackAddr (s.S - 1)) = true) :
    ∃ u, PushedReturn s u := by
  have hdummy := ReadsOnly.dummy (stackAddr s.S) s
  refine pushBytes_accepts (List.forall_mem_cons.mpr ⟨?_, List.forall_mem_singleton.mpr ?_⟩)
  · rwa [hdummy.S, hdummy.accepts]
  · rwa [hdummy.S, hdummy.accepts]

namespace PushedReturn

theorem exec_jsr (h : PushedReturn s u) (a : Addr) :
    exec (.jsr a) s = .next (atBoundary (afterCall (loByte a) u)) := by
  rw [exec_jsr_endWrite, called, h]
  rfl

/-- `JSR` writes `S` and `PC` alone (R231). -/
theorem registers (h : PushedReturn s u) (lo : Byte) :
    (afterCall lo u).S = s.S - 2 ∧ (afterCall lo u).P = s.P ∧ (afterCall lo u).A = s.A ∧
      (afterCall lo u).X = s.X ∧ (afterCall lo u).Y = s.Y := by
  have hdummy := ReadsOnly.dummy (stackAddr s.S) s
  have hlast := ReadsOnly.read u.PC u
  exact ⟨hlast.S.trans ((pushBytes_S h).trans (congrArg (· - 2) hdummy.S)),
    hlast.P.trans ((pushBytes_P h).trans hdummy.P), hlast.A.trans ((pushBytes_A h).trans hdummy.A),
    hlast.X.trans ((pushBytes_X h).trans hdummy.X), hlast.Y.trans ((pushBytes_Y h).trans hdummy.Y)⟩

theorem PC (h : PushedReturn s u) : u.PC = s.PC := (pushBytes_PC h).trans (busRead_PC _ _)

theorem trace (h : PushedReturn s u) (lo : Byte) : (afterCall lo u).trace = s.trace ++
    [Access.rd (stackAddr s.S) (busRead (stackAddr s.S) s).1, Access.wr (stackAddr s.S) (hiByte s.PC),
      Access.wr (stackAddr (s.S - 1)) (loByte s.PC), Access.rd s.PC (busRead s.PC u).1] := by
  have hlast : (afterCall lo u).trace = u.trace ++ [Access.rd u.PC (busRead u.PC u).1] := busRead_trace u.PC u
  rw [hlast, h.PC, pushBytes_trace h, (ReadsOnly.dummy (stackAddr s.S) s).S, dummyRead, busRead_trace]
  simp [pushTrace]

/-- The last byte of `JSR` is read where it was before the pushes, if they do not overwrite it. -/
theorem afterCall_PC (h : PushedReturn s u) (hbyte : ramByte s s.PC = some (hiByte a))
    (hhi : s.ramCell s.PC ≠ s.ramCell (stackAddr s.S)) (hlo : s.ramCell s.PC ≠ s.ramCell (stackAddr (s.S - 1))) :
    (afterCall (loByte a) u).PC = a := by
  have hdummy := ReadsOnly.dummy (stackAddr s.S) s
  have hkept : ramByte u u.PC = some (hiByte a) := by
    rw [h.PC]
    refine pushBytes_ramByte_other h ((hdummy.ramByte s.PC).trans hbyte) ?_
    rw [hdummy.S]
    simp only [hdummy.ramCell]
    exact List.forall_mem_cons.mpr ⟨hhi.symm, List.forall_mem_singleton.mpr hlo.symm⟩
  rw [afterCall, busRead_of_ramByte hkept, mkAddr_hiByte_loByte]

/-- `RTS` finds the address pushed, if the two slots are two cells of RAM that stay as `JSR` left them (R233). -/
theorem returnedSub_PC {w : State} {m n : Nat} (h : PushedReturn s u) (hm : s.ramCell (stackAddr s.S) = some m)
    (hn : s.ramCell (stackAddr (s.S - 1)) = some n) (hne : m ≠ n) (hmem : w.mem = u.mem)
    (hplatform : w.platform = u.platform) (hS : w.S = s.S - 2) : (returnedSub w).PC = s.PC + 1 := by
  have hdummy := ReadsOnly.dummy (stackAddr s.S) s
  rw [← hdummy.S, ← hdummy.ramCell] at hm hn
  obtain ⟨hhi, hlo⟩ := pushBytes_pair_ramByte h hm hn hne
  rw [hdummy.S] at hhi hlo
  have hlow : w.S + 1 = s.S - 1 := by rw [hS]; bv_omega
  have hhigh : w.S + 2 = s.S := by rw [hS]; bv_omega
  rw [Machine.returnedSub_PC (hlow ▸ (ramByte_congr hmem hplatform _).trans hlo)
    (hhigh ▸ (ramByte_congr hmem hplatform _).trans hhi), mkAddr_hiByte_loByte]

/-- `RTS` from such a state goes on after the `JSR`, with `S` as before it and the other registers as they are. -/
theorem exec_rts {w : State} {m n : Nat} (h : PushedReturn s u) (hm : s.ramCell (stackAddr s.S) = some m)
    (hn : s.ramCell (stackAddr (s.S - 1)) = some n) (hne : m ≠ n) (hmem : w.mem = u.mem)
    (hplatform : w.platform = u.platform) (hS : w.S = s.S - 2) :
    ∃ r, exec .rts w = .next r ∧ r.PC = s.PC + 1 ∧ r.S = s.S ∧ r.P = w.P ∧ r.A = w.A ∧ r.X = w.X ∧ r.Y = w.Y := by
  have hPC := h.returnedSub_PC hm hn hne hmem hplatform hS
  have hreads := returnedSub_reads w
  have hback : w.S + 2 = s.S := by rw [hS]; bv_omega
  refine ⟨_, exec_rts_next w, ?_⟩
  generalize returnedSub w = r at hPC hreads ⊢
  exact ⟨hPC, hreads.S.trans hback, hreads.P, hreads.A, hreads.X, hreads.Y⟩

end PushedReturn

/-- Settles O15: `JSR` by its dummy read, its pushes and its last read, `RTS` by its five reads. -/
theorem subroutines : Obligations.Subroutines := by
  unfold Obligations.Subroutines
  refine ⟨fun a s => ⟨rfl, exec_jsr_endWrite a s, fun hhi hlo => ?jsr⟩, fun s => ?rts⟩
  case jsr =>
    obtain ⟨u, hpushed⟩ := exists_pushedReturn hhi hlo
    obtain ⟨hS, hP, hA, hX, hY⟩ := hpushed.registers (loByte a)
    exact ⟨_, hpushed.exec_jsr a, hS, hP, hA, hX, hY, _, _, congrArg (fun pc => mkAddr (busRead pc u).1 _) hpushed.PC,
      hpushed.trace (loByte a), hpushed.afterCall_PC⟩
  case rts =>
    have hreads := returnedSub_reads s
    exact ⟨rfl, exec_rts_next s, hreads.S, hreads.P, hreads.A, hreads.X, hreads.Y, hreads.mem, hreads.trace_length,
      fun lo hi => returnedSub_PC⟩

/-- Settles O16: the two cells hold the address that `JSR` pushed, and no read of `RTS` changes them. -/
theorem subroutineRoundTrip : Obligations.SubroutineRoundTrip := by
  unfold Obligations.SubroutineRoundTrip
  intro a s m n hm hn hne
  obtain ⟨u, hpushed⟩ := exists_pushedReturn (accepts_of_ramCell hm) (accepts_of_ramCell hn)
  obtain ⟨hS, hP, hA, hX, hY⟩ := hpushed.registers (loByte a)
  refine ⟨_, hpushed.exec_jsr a, fun p => ?_⟩
  obtain ⟨r, hrts, hPC, hrS, hrP, hrA, hrX, hrY⟩ :=
    hpushed.exec_rts (w := { atBoundary (afterCall (loByte a) u) with PC := p }) hm hn hne (busRead_mem u.PC u)
      (busRead_platform u.PC u) hS
  exact ⟨r, hrts, hPC, hrS, hrP.trans hP, hrA.trans hA, hrX.trans hX, hrY.trans hY⟩

end Sys2Proof.Machine
end

section
/-! The stack and flag instructions, `BRK` and `RTI` (44_stack_flags_system.md): each cycle table as one equation, what
it leaves of the registers, and what the pulls find on a stack in RAM. -/

namespace Sys2Proof.Machine

open Sys2Proof.Spec

variable {s t u : State} {v : Byte}

/-! ## Pushes -/

/-- One push is one write, after which `S` falls (R23). -/
theorem pushBytes_singleton (v : Byte) (s : State) :
    pushBytes [v] s = (busWrite (stackAddr s.S) v s).map fun t => { t with S := s.S - 1 } := by
  unfold pushBytes
  cases hw : busWrite (stackAddr s.S) v s with
  | error f => rfl
  | ok t => rw [← busWrite_S hw]; rfl

/-- `PHA` and `PHP`, by the byte that each pushes (R240, R241). -/
theorem pushTable_exec1 (ir : Byte) {val : State → Byte} (hval : val (dummyRead s.PC s) = v) :
    (oneByteProg ir (pushTable val)).exec1 s = endWrite (pushBytes [v] (dummyRead s.PC s)) := by
  rw [oneByteProg_exec1, pushTable_run, close_afterPushes, hval]
  cases pushBytes [v] (dummyRead s.PC s) <;> rfl

theorem endWrite_push (v : Byte) (s : State) :
    endWrite (pushBytes [v] (dummyRead s.PC s)) =
      endWrite ((busWrite (stackAddr s.S) v (dummyRead s.PC s)).map fun t => { t with S := s.S - 1 }) := by
  rw [pushBytes_singleton, (ReadsOnly.dummy s.PC s).S]

/-- A push into a slot that accepts a write: one dummy read, one write, and `S` one lower (R240, R241). -/
theorem endWrite_push_accepts (v : Byte) (h : s.accepts (stackAddr s.S) = true) :
    ∃ t, endWrite (pushBytes [v] (dummyRead s.PC s)) = .next t ∧ t.S = s.S - 1 ∧ t.P = s.P ∧ t.A = s.A ∧
      ∃ w, t.trace = s.trace ++ [Access.rd s.PC w, Access.wr (stackAddr s.S) v] := by
  have hdummy := ReadsOnly.dummy s.PC s
  obtain ⟨u, hu⟩ : ∃ u, pushBytes [v] (dummyRead s.PC s) = .ok u := by
    refine pushBytes_accepts (List.forall_mem_singleton.mpr ?_)
    rwa [hdummy.S, hdummy.accepts]
  refine ⟨atBoundary u, by rw [hu]; rfl, ?S, (pushBytes_P hu).trans hdummy.P, (pushBytes_A hu).trans hdummy.A,
    (busRead s.PC s).1, ?trace⟩
  case S => exact (pushBytes_S hu).trans (congrArg (· - 1) hdummy.S)
  case trace =>
    rw [atBoundary_trace, pushBytes_trace hu, hdummy.S, dummyRead, busRead_trace]
    simp [pushTrace]

/-! ## Pulls -/

/-- The byte pulled after reads, from a slot in RAM. -/
theorem pullByte_of_reads {n : Nat} (h : ReadsOnly n s t) (hv : ramByte s (stackAddr (s.S + 1)) = some v) :
    (pullByte t).1 = v := by
  refine pullByte_of_ramByte ?_
  rwa [h.S, h.ramByte]

/-- `PLA` and `PLP`, by what each does with the byte pulled (R242, R243). -/
theorem pullTable_exec1 (ir : Byte) (op : ReadOp) (s : State) :
    (oneByteProg ir (pullTable op)).exec1 s =
      .next (atBoundary (let p := pullByte (dummyRead (stackAddr s.S) (dummyRead s.PC s)); op p.1 p.2)) := by
  rw [oneByteProg_exec1, pullTable_run, close_done]

/-- `PLA` sets `N` and `Z` from the byte pulled and leaves the other flags (R242). -/
theorem exec_pla_next (s : State) :
    exec .pla s =
      (let p := pullByte (dummyRead (stackAddr s.S) (dummyRead s.PC s))
       .next (atBoundary { p.2 with A := p.1, P := { s.P with N := p.1.getLsbD 7, Z := p.1 == 0#8 } })) := by
  have hP := (dummyReads_reads s).pull.P
  refine (pullTable_exec1 0x68#8 opPla s).trans ?_
  dsimp only [opPla, setNZ]
  rw [hP]

/-- Settles O32: a push is one write, in a slot that accepts it or not, and a pull is one read after two dummy reads. -/
theorem stackInstructions : Obligations.StackInstructions := by
  unfold Obligations.StackInstructions
  intro s
  have hreads := dummyReads_reads s
  have hpha : exec .pha s = endWrite (pushBytes [s.A] (dummyRead s.PC s)) :=
    pushTable_exec1 0x48#8 (val := State.A) (ReadsOnly.dummy s.PC s).A
  have hphp : exec .php s = endWrite (pushBytes [pack true s.P] (dummyRead s.PC s)) :=
    pushTable_exec1 0x08#8 (val := fun s => pack true s.P) (congrArg (pack true) (ReadsOnly.dummy s.PC s).P)
  refine ⟨⟨rfl, rfl, rfl, rfl⟩, hpha.trans (endWrite_push ..), hphp.trans (endWrite_push ..), fun hslot => ⟨?pha, ?php⟩,
    hreads.pull.S, fun v hv => pullByte_of_reads hreads hv, exec_pla_next s, pullTable_exec1 0x28#8 opPlp s⟩
  case pha => rw [hpha]; exact endWrite_push_accepts s.A hslot
  case php => rw [hphp]; exact endWrite_push_accepts (pack true s.P) hslot

/-! ## Flags -/

/-- Settles O33: each is of the implied class, with the write of one flag, or nothing, as its operation. -/
theorem flagInstructions : Obligations.FlagInstructions := by
  unfold Obligations.FlagInstructions
  intro s
  refine ⟨?clc, ?sec, ?cli, ?sei, ?clv, ?cld, ?sed, ?nop⟩
  case clc => exact implied_of_exec (eff := opClc) rfl rfl fun _ => rfl
  case sec => exact implied_of_exec (eff := opSec) rfl rfl fun _ => rfl
  case cli => exact implied_of_exec (eff := opCli) rfl rfl fun _ => rfl
  case sei => exact implied_of_exec (eff := opSei) rfl rfl fun _ => rfl
  case clv => exact implied_of_exec (eff := opClv) rfl rfl fun _ => rfl
  case cld => exact implied_of_exec (eff := opCld) rfl rfl fun _ => rfl
  case sed => exact implied_of_exec (eff := opSed) rfl rfl fun _ => rfl
  case nop => exact implied_of_exec (eff := id) rfl rfl fun _ => rfl

/-! ## Taking an interrupt -/

/-- What holds of the three slots of an entry holds of every address that three pushes write. -/
theorem forall_mem_pushAddrs_three {Q : Addr → Prop} {sp : Byte} (h₀ : Q (stackAddr sp)) (h₁ : Q (stackAddr (sp - 1)))
    (h₂ : Q (stackAddr (sp - 2))) : ∀ a ∈ pushAddrs 3 sp, Q a := by
  have hslot : sp - 1 - 1 = sp - 2 := BitVec.sub_sub ..
  rw [← hslot] at h₂
  exact List.forall_mem_cons.mpr ⟨h₀, List.forall_mem_cons.mpr ⟨h₁, List.forall_mem_singleton.mpr h₂⟩⟩

theorem pushTrace_three (v₁ v₂ v₃ sp : Byte) : pushTrace [v₁, v₂, v₃] sp =
    [Access.wr (stackAddr sp) v₁, Access.wr (stackAddr (sp - 1)) v₂, Access.wr (stackAddr (sp - 2)) v₃] := by
  have hslot : sp - 1 - 1 = sp - 2 := BitVec.sub_sub ..
  simp only [pushTrace, hslot]

/-- `u` is the state of an entry from `s` before its pushes: dummy reads at `pre`, after which `PC` and the NMI latch may
differ (R252, R354). -/
def BeforePushes (pre : List Addr) (s u : State) : Prop :=
  (∃ n pc nmi, ReadsOnly n { s with PC := pc, nmiPending := nmi } u) ∧
    ∃ vs, vs.length = pre.length ∧ u.trace = s.trace ++ readsAt pre vs

/-- The pushes of an entry do not halt the block, if the three slots accept a write. -/
theorem BeforePushes.exists_pushed {pre : List Addr} (h : BeforePushes pre s u) (hslots : stackAccepts s)
    (v₁ v₂ v₃ : Byte) : ∃ t, pushBytes [v₁, v₂, v₃] u = .ok t := by
  obtain ⟨⟨n, pc, nmi, hreads⟩, -⟩ := h
  obtain ⟨hfirst, hsecond, hthird⟩ := hslots
  refine pushBytes_accepts ?_
  simp only [hreads.S, hreads.accepts]
  exact forall_mem_pushAddrs_three hfirst hsecond hthird

/-- The pushes and the vector leave what an entry leaves (R252, R354). -/
theorem BeforePushes.entered {pre : List Addr} {b : Bool} {ret : Addr} (h : BeforePushes pre s u)
    (hpush : pushBytes [hiByte ret, loByte ret, pack b s.P] u = .ok t) (vec : Addr) :
    Entered b vec ret pre s (atBoundary (throughVector vec t)) := by
  obtain ⟨⟨n, pc, nmi, hreads⟩, vs, hlength, htrace⟩ := h
  obtain ⟨lo, hi, w, hvector, heq, hlast⟩ := throughVector_reads vec t
  rw [heq]
  refine ⟨⟨vs, lo, hi, hlength, ?trace, rfl⟩, ?P, ?S, ?A, ?X, ?Y, rfl, rfl, fun n h₀ h₁ h₂ => ?memory⟩
  case trace =>
    refine hlast.trans ?_
    rw [pushBytes_trace hpush, hreads.S, pushTrace_three, htrace]
    simp
  case memory =>
    have hother : ∀ a ∈ pushAddrs 3 u.S, u.ramCell a ≠ some n := by
      simp only [hreads.S, hreads.ramCell]
      exact forall_mem_pushAddrs_three h₀ h₁ h₂
    have hwritten := pushBytes_read_other hpush hother
    rw [hreads.mem] at hwritten
    exact (congrArg (Memory.read · n) hvector.mem).trans hwritten
  case P => exact hvector.P.trans (congrArg (fun p => { p with I := true }) ((pushBytes_P hpush).trans hreads.P))
  case S => exact hvector.S.trans ((pushBytes_S hpush).trans (congrArg (· - 3) hreads.S))
  case A => exact hvector.A.trans ((pushBytes_A hpush).trans hreads.A)
  case X => exact hvector.X.trans ((pushBytes_X hpush).trans hreads.X)
  case Y => exact hvector.Y.trans ((pushBytes_Y hpush).trans hreads.Y)

/-! ## BRK -/

theorem exec_brk_endWrite (s : State) :
    exec .brk s = endWrite ((pushBytes [hiByte (s.PC + 1), loByte (s.PC + 1), pack true s.P]
      { dummyRead s.PC s with PC := s.PC + 1 }).map (throughVector irqVector)) := by
  rw [exec_brk, execBrk, progBrk, oneByteProg_exec1, brkCycles_run, close_afterPushes]

/-- `BRK` pushes after the dummy read of its padding byte (R252). -/
theorem beforePushes_brk (s : State) : BeforePushes [s.PC] s { dummyRead s.PC s with PC := s.PC + 1 } :=
  ⟨⟨1, s.PC + 1, s.nmiPending, (ReadsOnly.dummy s.PC s).withPC (s.PC + 1)⟩, [(busRead s.PC s).1], rfl,
    busRead_trace s.PC s⟩

/-- Settles O12: `BRK` is the entry of an interrupt after one dummy read. -/
theorem breakEntry : Obligations.BreakEntry := by
  unfold Obligations.BreakEntry
  refine fun s => ⟨rfl, exec_brk_endWrite s, fun hslots => ?_⟩
  obtain ⟨t, ht⟩ := (beforePushes_brk s).exists_pushed hslots (hiByte (s.PC + 1)) (loByte (s.PC + 1)) (pack true s.P)
  exact ⟨_, by rw [exec_brk_endWrite, ht]; rfl, (beforePushes_brk s).entered ht irqVector⟩

/-! ## RTI -/

/-- Reads do not look at the flags. -/
theorem ReadsOnly.withP {n : Nat} (h : ReadsOnly n s t) (p : Flags) :
    ReadsOnly n { s with P := p } { t with P := p } := by
  obtain ⟨c, dv, d, e, hh, tr, rfl, hrest⟩ := h
  exact ⟨c, dv, d, e, hh, tr, rfl, hrest⟩

theorem exec_rti_next (s : State) : exec .rti s = .next (atBoundary (returned s)) := by
  rw [exec_rti, execRti, progRti, oneByteProg_exec1, returnCycles_run]
  rfl

/-- `RTI` up to its first pull, whose byte the flags become (R253). -/
def statusPulled (s : State) : State :=
  let p := pullByte (dummyRead (stackAddr s.S) (dummyRead s.PC s))
  { p.2 with P := unpack p.1 }

/-- The address is the second and third byte pulled, with nothing added to it (R253). -/
theorem returned_PC_eq (s : State) :
    (returned s).PC = mkAddr (pullByte (pullByte (statusPulled s)).2).1 (pullByte (statusPulled s)).1 := rfl

theorem statusPulled_reads (s : State) :
    ReadsOnly 3 { s with S := s.S + 1, P := (statusPulled s).P } (statusPulled s) :=
  (dummyReads_reads s).pull.withP _

/-- `RTI` is two dummy reads and three pulls (R253). -/
theorem returned_reads (s : State) :
    ReadsOnly 5 { s with S := s.S + 3, P := (statusPulled s).P, PC := (returned s).PC } (returned s) := by
  have hS : s.S + 3 = s.S + 1 + 1 + 1 := by bv_omega
  rw [hS]
  exact (statusPulled_reads s).pull.pull.withPC _

/-- From a stack in RAM, `RTI` sets the flags from the first byte it pulls (R253). -/
theorem statusPulled_P {p : Byte} (hp : ramByte s (stackAddr (s.S + 1)) = some p) : (statusPulled s).P = unpack p :=
  congrArg unpack (pullByte_of_reads (dummyReads_reads s) hp)

/-- From a stack in RAM, `RTI` goes on at the address it pulls (R253). -/
theorem returned_PC {lo hi : Byte} (hlo : ramByte s (stackAddr (s.S + 2)) = some lo)
    (hhi : ramByte s (stackAddr (s.S + 3)) = some hi) : (returned s).PC = mkAddr hi lo := by
  have hstatus := statusPulled_reads s
  have hS₂ : s.S + 2 = s.S + 1 + 1 := by bv_omega
  have hS₃ : s.S + 3 = s.S + 1 + 1 + 1 := by bv_omega
  rw [hS₂] at hlo
  rw [hS₃] at hhi
  rw [returned_PC_eq, pullByte_of_reads hstatus hlo, pullByte_of_reads hstatus.pull hhi]

/-- Settles O13: `RTI` by its five reads, three of them pulls. -/
theorem returnFromInterrupt : Obligations.ReturnFromInterrupt := by
  unfold Obligations.ReturnFromInterrupt
  intro s
  have hreads := returned_reads s
  exact ⟨rfl, exec_rti_next s, hreads.S, hreads.A, hreads.X, hreads.Y, hreads.mem, hreads.trace_length,
    fun _ _ _ hp hlo hhi => ⟨hreads.P.trans (statusPulled_P hp), returned_PC hlo hhi⟩⟩

end Sys2Proof.Machine
end

section
/-! The undocumented opcodes (45_undocumented.md): what the policy refuses, by the opcode byte (R270, R286 to R292), and
under `annex` each stable instruction as a form of the operand class whose table it runs. -/

namespace Sys2Proof.Machine

open Sys2Proof.Spec

/-! ## The policy -/

theorem close_ne_refused (ir : SeqKind) (n : Nat) (x : Micro) (r : Refusal) : close ir n x ≠ .refused r := by
  cases x <;> nofun

/-- An instruction is refused exactly as its opcode byte is (R270, R286 to R292). -/
theorem exec_refused_iff {i : Instr} {s : State} {r : Refusal} :
    exec i s = .refused r ↔ opRefusal (opByte i) s = some r := by
  have hrun : ∀ p : Prog, p.run (startLatches i) s ≠ .refused r := fun _ => close_ne_refused _ _ _ r
  rw [exec_eq_run, ← opEntry_opByte]
  unfold opRefusal
  cases opEntry (opByte i) with
  | documented p => simpa [OpEntry.run] using hrun p
  | annex p => cases hundoc : s.undoc <;> simp [OpEntry.run, annexed, hundoc, hrun p]
  | unstable => simp [OpEntry.run]

/-- The two lists of opcode bytes say of a byte which kind of entry it has (R97, R286 to R292). -/
def OpEntry.listed (op : Byte) : OpEntry → Bool
  | .documented _ => !undocumentedOps.contains op && !unstableOps.contains op
  | .annex _ => undocumentedOps.contains op && !unstableOps.contains op
  | .unstable => undocumentedOps.contains op && unstableOps.contains op

set_option maxRecDepth 8000 in
theorem opEntry_listed : ∀ op, (opEntry op).listed op = true := by decide

/-- What an opcode byte is refused for, by the lists (R270, R286 to R292). -/
theorem opRefusal_eq (op : Byte) (s : State) :
    opRefusal op s =
      if op ∈ unstableOps then some (.unstableOpcode op)
      else if op ∈ undocumentedOps ∧ s.undoc = .refuse then some (.undocumentedOpcode op)
      else none := by
  have hlisted := opEntry_listed op
  unfold OpEntry.listed at hlisted
  unfold opRefusal
  cases he : opEntry op <;> simp_all

theorem unstableOps_subset : unstableOps ⊆ undocumentedOps := by decide

/-- Settles O41: whether an instruction is refused depends on its opcode byte and the policy alone. -/
theorem undocPolicy : Obligations.UndocPolicy := by
  unfold Obligations.UndocPolicy
  intro i s
  have hrefusal := opRefusal_eq (opcode i) s
  refine ⟨fun hrefuse hop => ?refuse, fun hop r hr => ?documented, fun hannex hop r hr => ?annex⟩
  case refuse =>
    simp only [hop, hrefuse, and_self, if_true] at hrefusal
    split at hrefusal <;> exact ⟨_, exec_refused_iff.mpr hrefusal⟩
  case documented =>
    rw [if_neg (fun h => hop (unstableOps_subset h)), if_neg (fun ⟨h, _⟩ => hop h)] at hrefusal
    exact absurd (hrefusal.symm.trans (exec_refused_iff.mp hr)) nofun
  case annex =>
    rw [if_neg hop, if_neg (fun ⟨_, h⟩ => by cases hannex.symm.trans h)] at hrefusal
    exact absurd (hrefusal.symm.trans (exec_refused_iff.mp hr)) nofun

/-- Settles O40: each is refused by its opcode byte, whatever its operand and the state. -/
theorem unstableRefused : Obligations.UnstableRefused := by
  unfold Obligations.UnstableRefused
  intro d a s
  exact ⟨rfl, rfl, rfl, rfl, rfl, rfl, rfl, rfl, rfl, rfl, rfl, rfl, rfl, rfl, rfl, rfl⟩

/-! ## Forms under `annex` -/

/-- Under `annex` an undocumented opcode has its meaning (R270). -/
theorem annexed_annex {s : State} (hannex : s.undoc = .annex) (op : Byte) (meaning : Out) :
    annexed op s meaning = meaning := by
  rw [annexed, hannex]

/-- Undocumented forms whose encodings and tables are those of their modes: under `annex` each runs its table. -/
theorem forms_annex {forms : List Entry} {table : Entry → Prog}
    (htable : forms.map (fun e x s => (encode (e.instr x), exec (e.instr x) s)) =
      forms.map (fun e x s => (e.op :: e.mode.bytes x, annexed e.op s ((table e).execAt e.mode x s))))
    {s : State} (hannex : s.undoc = .annex) (x : Addr) {e : Entry} (he : e ∈ forms) :
    encode (e.instr x) = e.op :: e.mode.bytes x ∧ exec (e.instr x) s = (table e).execAt e.mode x s := by
  obtain ⟨hencode, hexec⟩ := Prod.mk.inj (congrFun₂ (List.map_inj_left.mp htable e he) x s)
  exact ⟨hencode, hexec.trans (annexed_annex hannex ..)⟩

section
variable {s : State} (hannex : s.undoc = .annex)
include hannex

theorem forms_read_annex {forms : List Entry} {eff : ReadOp}
    (htable : forms.map (fun e x s => (encode (e.instr x), exec (e.instr x) s)) =
      forms.map (fun e x s => (e.op :: e.mode.bytes x, annexed e.op s ((readProg e.op e.mode eff).execAt e.mode x s))))
    (hcycles : forms.map (fun e => e.cycles) = forms.map (fun e => e.mode.readCycleCount))
    (htrace : ∀ m t, (eff m t).trace = t.trace) (x : Addr) : ∀ e ∈ forms, Reads e eff x s := by
  intro e he
  obtain ⟨hencode, hexec⟩ := forms_annex htable hannex x he
  exact reads_of_execAt hencode hexec (List.map_inj_left.mp hcycles e he) htrace

theorem forms_write_annex {forms : List Entry} {reg : State → Byte}
    (htable : forms.map (fun e x s => (encode (e.instr x), exec (e.instr x) s)) =
      forms.map (fun e x s => (e.op :: e.mode.bytes x, annexed e.op s ((writeProg e.op e.mode reg).execAt e.mode x s))))
    (hcycles : forms.map (fun e => e.cycles) = forms.map (fun e => e.mode.writeCycleCount))
    (hmode : forms.all (fun e => e.mode != .imm) = true) (hreg : RegisterByte reg) (x : Addr) :
    ∀ e ∈ forms, Writes e reg x s := by
  intro e he
  obtain ⟨hencode, hexec⟩ := forms_annex htable hannex x he
  exact writes_of_execAt (bne_iff_ne.mp (List.all_eq_true.mp hmode e he)) hencode hexec
    (List.map_inj_left.mp hcycles e he) hreg

theorem forms_modify_annex {forms : List Entry} {f : RmwOp} {new : Byte → Flags → Byte} {eff : Byte → State → State}
    (htable : forms.map (fun e x s => (encode (e.instr x), exec (e.instr x) s)) =
      forms.map (fun e x s => (e.op :: e.mode.bytes x, annexed e.op s ((rmwProg e.op e.mode f).execAt e.mode x s))))
    (hcycles : forms.map (fun e => e.cycles) = forms.map (fun e => e.mode.rmwCycleCount))
    (hmode : forms.all (fun e => e.mode != .imm) = true) (hop : ∀ m t, f m t = (new m t.P, eff m t))
    (htrace : ∀ m t, (eff m t).trace = t.trace) (x : Addr) : ∀ e ∈ forms, Modifies e new eff x s := by
  intro e he
  obtain ⟨hencode, hexec⟩ := forms_annex htable hannex x he
  exact modifies_of_execAt (bne_iff_ne.mp (List.all_eq_true.mp hmode e he)) hencode hexec
    (List.map_inj_left.mp hcycles e he) hop htrace

/-- A shift or rotation of memory followed by an operation on the new value, by the equation of the shift (R273 to
R276). -/
theorem forms_shiftThen_annex {forms : List Entry} {f : Byte → Flags → Byte × Flags} {op : ReadOp}
    {new : Byte → Flags → Byte} {flags : Byte → Flags → Flags} (hshift : ∀ v p, f v p = (new v p, flags v p))
    (htable : forms.map (fun e x s => (encode (e.instr x), exec (e.instr x) s)) =
      forms.map (fun e x s => (e.op :: e.mode.bytes x,
        annexed e.op s ((rmwProg e.op e.mode (rmwThen (shiftMemory f) op)).execAt e.mode x s))))
    (hcycles : forms.map (fun e => e.cycles) = forms.map (fun e => e.mode.rmwCycleCount))
    (hmode : forms.all (fun e => e.mode != .imm) = true) (htrace : ∀ m t, (op m t).trace = t.trace) (x : Addr) :
    ∀ e ∈ forms, Modifies e new (fun m t => op (new m t.P) { t with P := flags m t.P }) x s :=
  forms_modify_annex hannex (eff := fun m t => op (new m t.P) { t with P := flags m t.P }) htable hcycles hmode
    (fun m t => by simp only [rmwThen, shiftMemory, hshift]) (fun _ _ => htrace _ _) x

/-- One-byte forms of the implied class. -/
theorem forms_implied_annex {forms : List (Byte × Instr)} {eff : State → State}
    (htable : forms.map (fun f s => (encode f.2, exec f.2 s)) =
      forms.map (fun f s => ([f.1], annexed f.1 s ((impliedProg f.1 eff).exec1 s))))
    (htrace : ∀ t, (eff t).trace = t.trace) : ∀ f ∈ forms, Implied f.2 f.1 eff s := by
  intro f hf
  obtain ⟨hencode, hexec⟩ := Prod.mk.inj (congrFun (List.map_inj_left.mp htable f hf) s)
  exact implied_of_exec hencode (hexec.trans (annexed_annex hannex ..)) htrace

/-- An immediate form on its own, by the equation of its operation. -/
theorem immediate_annex {e : Entry} {op eff : ReadOp} {x : Addr} (hop : ∀ m t, op m t = eff m t)
    (hencode : encode (e.instr x) = e.op :: e.mode.bytes x)
    (hexec : exec (e.instr x) s = annexed e.op s ((readProg e.op e.mode op).execAt e.mode x s))
    (hcycles : e.cycles = e.mode.readCycleCount) (htrace : ∀ m t, (eff m t).trace = t.trace) : Reads e eff x s := by
  obtain rfl : op = eff := funext₂ hop
  exact reads_of_execAt hencode (hexec.trans (annexed_annex hannex ..)) hcycles htrace

end

/-! ## The instructions -/

/-- Settles O35: the forms with an operand are of the read class, the one-byte forms of the implied class, and their
operation discards the byte. -/
theorem undocNops : Obligations.UndocNops := by
  unfold Obligations.UndocNops
  intro s hannex
  refine ⟨fun e he x => ?operand, ?oneByte⟩
  case operand => exact forms_read_annex hannex (eff := opDiscard) rfl rfl (fun _ _ => rfl) x e he
  case oneByte => exact forms_implied_annex hannex (eff := id) rfl fun _ => rfl

/-- Settles O37: `SAX` is of the write class, `LAX` of the read class. -/
theorem saxLax : Obligations.SaxLax := by
  unfold Obligations.SaxLax
  intro x s hannex
  refine ⟨?sax, ?lax⟩
  case sax => exact forms_write_annex hannex (reg := valSax) rfl rfl rfl (fun h => by rw [valSax, valSax, h.A, h.X]) x
  case lax => exact forms_read_annex hannex (eff := opLax) rfl rfl (fun _ _ => rfl) x

/-- Settles O36: the forms are of the rmw class; their operation is the shift, rotation, increment or decrement of
memory, and then that of the register with the new value and the carry just produced. -/
theorem undocReadModifyWrite : Obligations.UndocReadModifyWrite := by
  unfold Obligations.UndocReadModifyWrite
  intro x s hannex
  refine ⟨?slo, ?rla, ?sre, ?rra, ?dcp, ?isc⟩
  case slo =>
    exact forms_shiftThen_annex hannex (f := shiftLeft) (op := opOra) (fun _ _ => rfl) rfl rfl rfl (fun _ _ => rfl) x
  case rla => exact forms_shiftThen_annex hannex (op := opAnd) rotateLeft_eq rfl rfl rfl (fun _ _ => rfl) x
  case sre => exact forms_shiftThen_annex hannex (op := opEor) shiftRight_eq rfl rfl rfl (fun _ _ => rfl) x
  case rra => exact forms_shiftThen_annex hannex (op := opAdc) rotateRight_eq rfl rfl rfl (fun _ _ => rfl) x
  case dcp => exact forms_modify_annex hannex (f := opDcp) rfl rfl rfl (by intros; rfl) (by intros; rfl) x
  case isc => exact forms_modify_annex hannex (f := opIsc) rfl rfl rfl (by intros; rfl) (by intros; rfl) x

/-- Settles O38: immediate forms of the read class. -/
theorem undocImmediates : Obligations.UndocImmediates := by
  unfold Obligations.UndocImmediates
  intro x s hannex
  refine ⟨?anc, ?alr, ?sbx, ?usbc⟩
  case anc => exact forms_read_annex hannex (eff := opAnc) rfl rfl (fun _ _ => rfl) x
  case alr =>
    exact immediate_annex hannex (op := opAlr) (fun m t => by rw [opAlr, shiftRight_eq]) rfl rfl rfl (fun _ _ => rfl)
  case sbx => exact immediate_annex hannex (op := opSbx) (fun _ _ => rfl) rfl rfl rfl (fun _ _ => rfl)
  case usbc => exact immediate_annex hannex (op := opSbc) (fun _ _ => rfl) rfl rfl rfl (fun _ _ => rfl)

/-- Settles O39: an immediate form of the read class, its operation by the mode that `D` selects. -/
theorem arrBothModes : Obligations.ArrBothModes := by
  unfold Obligations.ArrBothModes
  intro x s hannex
  refine immediate_annex hannex (op := opArr) (fun m t => ?_) rfl rfl rfl (fun m t => ?_)
  · dsimp only [opArr]
    split
    · rw [arrDecimal, arrRotate, setWidth_ofBool]
    · rw [arrBinary, arrRotate, setWidth_ofBool]
      rfl
  · dsimp only
    split <;> rfl

end Sys2Proof.Machine
end

section
/-! `JAM` (R272): a sequence with no cycle left makes a read at a fixed address in every clock step and never reaches a
boundary. -/

namespace Sys2Proof.Machine

open Sys2Proof.Spec

/-- A run of clock steps that ends in a next state begins with a clock step that does. -/
theorem clockSteps_succ_next {n : Nat} {s u : State} (h : clockSteps (n + 1) s = .next u) :
    ∃ t, clockStep s = .next t ∧ clockSteps n t = .next u := by
  cases hclock : clockStep s with
  | next t => exact ⟨t, rfl, (clockSteps_succ hclock n).symm.trans h⟩
  | fault f => simp only [clockSteps, hclock, reduceCtorEq] at h
  | refused r => simp only [clockSteps, hclock, reduceCtorEq] at h

/-! ## A sequencer that is locked up -/

/-- The address that a locked-up sequencer reads in a cycle (R272). -/
def lockedAddr (t : Nat) : Addr := if t = 4 ∨ t = 5 then 0xFFFE#16 else 0xFFFF#16

/-- What a locked-up cycle leaves (R272). -/
def lockedState (sq : Seq) (s : State) : State :=
  { (busRead (lockedAddr sq.t) s.beginSequence).2 with
    phase := .run { sq with t := min (sq.t + 1) 6 }, boundary := false }

theorem stuckCycle_eq (sq : Seq) (s : State) : stuckCycle sq s = .next (lockedState sq s) := rfl

section
variable {sq : Seq} {s u : State} (hphase : s.phase = .run sq) (hrest : sq.rest = [])
include hphase hrest

/-- With no cycle left, a clock step is one locked-up cycle (R272). -/
theorem clockStep_locked : clockStep s = settle (.next (lockedState sq s)) := by
  simp only [clockStep, hphase, runCycle, hrest, stuckCycle_eq]

/-- With no cycle left, a whole step is one clock step (log entry 10). -/
theorem step_eq_clockStep_locked : step s = clockStep s := by
  rw [clockStep_locked hphase hrest]
  simp only [step, hphase, runRest, hrest, stuckCycle_eq]

theorem clockStep_locked_next (h : clockStep s = .next u) : u = lockedState sq s := by
  rw [clockStep_locked hphase hrest] at h
  exact (Host.Outcome.next.inj (settle_next.mp h).1).symm

/-- Where no read can halt the block, a locked-up clock step goes on (R272). -/
theorem clockStep_locked_quiet (hquiet : s.quiet = true) :
    clockStep s = .next (lockedState sq s) ∧ (lockedState sq s).quiet = true := by
  have hread : (lockedState sq s).quiet = true := busRead_quiet (lockedAddr sq.t) (s := s.beginSequence) hquiet
  exact ⟨(clockStep_locked hphase hrest).trans (settle_of_next rfl (quiet_iff.mp hread).1), hread⟩

end

/-! ## A sequencer that `JAM` has locked up -/

/-- `u` is in the lock-up of an opcode byte, off the boundary, with the registers, the flags and the memory of `s`. -/
def LockedFrom (op : Byte) (q : Latches) (s u : State) : Prop :=
  ∃ t, 3 ≤ t ∧ u.phase = .run { ir := .op op, t, q } ∧ u.boundary = false ∧ u.A = s.A ∧ u.X = s.X ∧ u.Y = s.Y ∧
    u.S = s.S ∧ u.PC = s.PC ∧ u.P = s.P ∧ u.mem = s.mem

theorem LockedFrom.trans {op : Byte} {q : Latches} {s t u : State} (h : LockedFrom op q s t)
    (h' : LockedFrom op q t u) : LockedFrom op q s u := by
  obtain ⟨_, _, _, _, hA, hX, hY, hS, hPC, hP, hmem⟩ := h
  obtain ⟨n, hn, hphase, hboundary, hA', hX', hY', hS', hPC', hP', hmem'⟩ := h'
  exact ⟨n, hn, hphase, hboundary, hA'.trans hA, hX'.trans hX, hY'.trans hY, hS'.trans hS, hPC'.trans hPC,
    hP'.trans hP, hmem'.trans hmem⟩

theorem lockedState_lockedFrom {op : Byte} {t : Nat} (ht : 3 ≤ t) (q : Latches) (s : State) :
    LockedFrom op q s (lockedState { ir := .op op, t, q } s) :=
  have hread := ReadsOnly.read (lockedAddr t) s.beginSequence
  ⟨min (t + 1) 6, by omega, rfl, rfl, hread.A, hread.X, hread.Y, hread.S, hread.PC, hread.P, hread.mem⟩

section
variable {op : Byte} (hop : opCycles op = [jamCycle]) {q : Latches} {s u : State}
include hop

/-- The table of `JAM` has one cycle after the opcode fetch (R272). -/
theorem jam_rest {t : Nat} (ht : 3 ≤ t) (q : Latches) : Seq.rest { ir := .op op, t, q } = [] := by
  simp only [Seq.rest, cyclesFrom, hop, List.drop_eq_nil_iff, List.length_singleton]
  omega

theorem clockStep_lockedFrom {t : Nat} (ht : 3 ≤ t) (hphase : s.phase = .run { ir := .op op, t, q })
    (h : clockStep s = .next u) : LockedFrom op q s u :=
  clockStep_locked_next hphase (jam_rest hop ht q) h ▸ lockedState_lockedFrom ht q s

/-- The lock-up lasts through any number of clock steps. -/
theorem clockSteps_lockedFrom (n : Nat) {v : State} (h : LockedFrom op q s u) (hrun : clockSteps n u = .next v) :
    LockedFrom op q s v := by
  induction n generalizing u with
  | zero => cases hrun; exact h
  | succ n ih =>
    obtain ⟨t, ht, hphase, _⟩ := id h
    obtain ⟨w, hclock, hrest⟩ := clockSteps_succ_next hrun
    exact ih (h.trans (clockStep_lockedFrom hop ht hphase hclock)) hrest

/-- Where no read can halt the block, a locked-up sequencer makes any number of clock steps. -/
theorem clockSteps_locked_quiet (n : Nat) {t : Nat} (ht : 3 ≤ t) (hphase : s.phase = .run { ir := .op op, t, q })
    (hquiet : s.quiet = true) : ∃ u, clockSteps n s = .next u := by
  induction n generalizing s t with
  | zero => exact ⟨s, rfl⟩
  | succ n ih =>
    obtain ⟨hclock, hnext⟩ := clockStep_locked_quiet hphase (jam_rest hop ht q) hquiet
    rw [clockSteps_succ hclock]
    exact ih (t := min (t + 1) 6) (by omega) rfl hnext

end

/-! ## JAM -/

theorem jamForms_table {f : Byte × Instr} (hf : f ∈ jamForms) :
    encode f.2 = [f.1] ∧ opCycles f.1 = [jamCycle] ∧
      ∀ s, exec f.2 s = annexed f.1 s ((oneByteProg f.1 [jamCycle]).exec1 s) := by
  have htable : jamForms.map (fun f => (encode f.2, opCycles f.1, exec f.2)) =
      jamForms.map (fun f => ([f.1], [jamCycle], fun s => annexed f.1 s ((oneByteProg f.1 [jamCycle]).exec1 s))) := rfl
  obtain ⟨hencode, hrest⟩ := Prod.mk.inj (List.map_inj_left.mp htable f hf)
  obtain ⟨hcycles, hexec⟩ := Prod.mk.inj hrest
  exact ⟨hencode, hcycles, congrFun hexec⟩

/-- Settles O18: after its one read of `PC` the sequence has no cycle left, and the lock-up is kept by induction on the
clock steps. -/
theorem jamLocksUp : Obligations.JamLocksUp := by
  unfold Obligations.JamLocksUp
  intro f hf
  obtain ⟨hencode, hop, hexec⟩ := jamForms_table hf
  refine ⟨hencode, fun s hannex => (hexec s).trans (annexed_annex hannex ..), fun s t q ht hphase => ?_⟩
  have hrest := jam_rest hop ht q
  refine ⟨fun u hu => ?access, fun n u hu => ?kept, fun hquiet n => ?goesOn,
    step_eq_clockStep_locked hphase hrest, ?reset, nmiEdge_phase s, fun b => setIrq_phase b s⟩
  case access =>
    rw [clockStep_locked_next hphase hrest hu]
    exact ⟨_, busRead_trace (lockedAddr t) s.beginSequence⟩
  case kept =>
    obtain ⟨v, hclock, hsteps⟩ := clockSteps_succ_next hu
    exact clockSteps_lockedFrom hop n (clockStep_lockedFrom hop ht hphase hclock) hsteps
  case goesOn => exact clockSteps_locked_quiet hop n ht hphase hquiet
  case reset => simp only [resetInput, hphase]

end Sys2Proof.Machine
end

section
/-! What a push does to every slot and to `where` (R302 to R305), and the latency of a pushed pair (R308): the pairs of a
destination are read in the order of the `execute`s still to come, so that an `execute` moves each one place nearer. -/

namespace Sys2Proof.Machine

namespace DelayQueue

open Sys2Proof.Spec

variable {q t : DelayQueue} {d d' delay i j k : Nat} {v : Byte}

/-! ## The pieces of a push -/

/-- A slot of the ring after the removal of a destination's stale pair (R304). -/
theorem Inv.slot_cancel_of_lt (h : q.Inv) (d : Nat) (hi : i < q.depth) :
    (q.cancel d).slot i = (q.slot i).filter (fun p => p.1 != d) := by
  rcases h.slot_cancel d i with hslot | ⟨hle, _⟩
  · exact hslot
  · omega

/-- The removal of a stale pair leaves `where` as it was for the other destinations. -/
theorem where_cancel_other (q : DelayQueue) (h : d' ≠ d) :
    tableGet (q.cancel d).whereIs d' = tableGet q.whereIs d' := by
  unfold cancel
  cases tableGet q.whereIs d with
  | none => rfl
  | some i => exact tableGet_erase_other _ h

/-- A slot after the appending of a pair (R302). -/
theorem slot_append (hj : j < q.slots.length) (d : Nat) (v : Byte) (i : Nat) :
    (q.append d v j).slot i = if i = j then q.slot j ++ [(d, v)] else q.slot i :=
  slot_set q hj _ _ _ i

/-- The slot in force lies on the ring. -/
theorem Inv.next_lt (h : q.Inv) : q.next < q.depth :=
  h.1 ▸ h.next_lt_length

/-- The slots that pushes name lie on the ring. -/
theorem Inv.ring_lt (h : q.Inv) (k : Nat) : (q.next + k) % q.depth < q.depth :=
  Nat.mod_lt _ (Nat.zero_lt_of_lt h.next_lt)

/-! ## `push` -/

/-- Too great a delay, or a destination of no register, is refused first (R303, log entry 12). -/
theorem push_of_refused (v : Byte) (h : q.depth ≤ delay ∨ d ∉ q.dests) : q.push d v delay = .error .configError :=
  if_pos h

/-- A push that is not refused turns on the room left in its slot without the stale pair (R304, R305). -/
theorem Inv.push_of_accepted (h : q.Inv) (v : Byte) (hdelay : delay < q.depth) (hd : d ∈ q.dests) :
    q.push d v delay =
      if q.capacity ≤ ((q.slot ((q.next + delay) % q.depth)).filter (fun p => p.1 != d)).length
      then .error .queueOverflow
      else .ok ((q.cancel d).append d v ((q.next + delay) % q.depth)) := by
  have haccepted : ¬ (q.depth ≤ delay ∨ d ∉ q.dests) := not_or.mpr ⟨Nat.not_le.mpr hdelay, not_not.mpr hd⟩
  unfold DelayQueue.push
  rw [if_neg haccepted]
  simp only [cancel_capacity, cancel_next, cancel_depth, h.slot_cancel_of_lt d (h.ring_lt delay)]

/-- Every slot after a push: the pairs of the other destinations as before, the new pair at the end of its slot
(R302). -/
theorem Inv.slot_push (h : q.Inv) (ht : q.push d v delay = .ok t) (hi : i < q.depth) :
    t.slot i = if i = (q.next + delay) % q.depth then (q.slot i).filter (fun p => p.1 != d) ++ [(d, v)]
      else (q.slot i).filter (fun p => p.1 != d) := by
  obtain ⟨_, _, _, rfl⟩ := push_cases ht
  obtain ⟨hlen, _⟩ := h.cancel d
  rw [slot_append (by rw [hlen, cancel_depth]; exact h.ring_lt delay), ← h.slot_cancel_of_lt d hi]
  split
  · next hij => rw [hij]
  · rfl

/-- After a push `where` names the pushed pair's slot (R302). -/
theorem where_push (ht : q.push d v delay = .ok t) : tableGet t.whereIs d = some ((q.next + delay) % q.depth) := by
  obtain ⟨_, _, _, rfl⟩ := push_cases ht
  exact tableGet_set_self _ _ _

/-- A push leaves `where` as it was for the other destinations. -/
theorem where_push_other (ht : q.push d v delay = .ok t) (hne : d' ≠ d) :
    tableGet t.whereIs d' = tableGet q.whereIs d' := by
  obtain ⟨_, _, _, rfl⟩ := push_cases ht
  exact (tableGet_set_other _ _ hne).trans (q.where_cancel_other hne)

/-- Settles O52: the two refusals are checked first, the room next, and a push that succeeds is read slot by slot. -/
theorem queuePush : Obligations.QueuePush := by
  unfold Obligations.QueuePush
  intro q d v delay h
  refine ⟨fun hdelay => push_of_refused v (.inl hdelay), fun hd => push_of_refused v (.inr hd),
    fun hdelay hd hfull => ?overflow, fun hdelay hd hroom => ?pushed⟩
  case overflow => rw [h.push_of_accepted v hdelay hd, if_pos hfull.ge]
  case pushed =>
    have ht := (h.push_of_accepted v hdelay hd).trans (if_neg (Nat.not_le.mpr hroom))
    obtain ⟨_, _, _, hnext⟩ := push_constants ht
    exact ⟨_, ht, hnext, where_push ht, fun d' hne => where_push_other ht hne, fun i hi => h.slot_push ht hi⟩

/-! ## Latency -/

/-- The pairs of a destination that the `execute` numbered `k + 1` from now is to hand out. One turn of the ring holds
all that is pending, so there are none from `k = N` on. -/
def due (d k : Nat) (q : DelayQueue) : List (Nat × Byte) :=
  if k < q.depth then (q.slot ((q.next + k) % q.depth)).filter (fun p => p.1 == d) else []

/-- Within one turn of the ring, different delays reach different slots. -/
theorem ring_inj {n a k k' : Nat} (hk : k < n) (hk' : k' < n) : (a + k) % n = (a + k') % n ↔ k = k' := by
  refine ⟨fun h => ?_, fun h => by rw [h]⟩
  have hmod : k % n = k' % n := Nat.ModEq.add_left_cancel' a h
  rwa [Nat.mod_eq_of_lt hk, Nat.mod_eq_of_lt hk'] at hmod

/-- Within one turn of the ring, only the whole turn comes back to the place it began at. -/
theorem ring_succ_eq_start {n a k : Nat} (ha : a < n) (hk : k < n) : (a + (k + 1)) % n = a ↔ k + 1 = n := by
  have hstart : (a + 0) % n = a := Nat.mod_eq_of_lt ha
  by_cases hturn : k + 1 = n
  · refine iff_of_true ?_ hturn
    rw [hturn, Nat.add_mod_right]
    exact hstart
  · have hmoved : (a + (k + 1)) % n = (a + 0) % n ↔ k + 1 = 0 := ring_inj (by omega) (by omega)
    rw [hstart] at hmoved
    omega

@[simp] theorem execute_depth (q : DelayQueue) : q.execute.2.depth = q.depth := rfl
@[simp] theorem execute_next (q : DelayQueue) : q.execute.2.next = (q.next + 1) % q.depth := rfl

/-- What an `execute` hands out for a destination is what was due at once (R306). -/
theorem Inv.execute_calls (h : q.Inv) (d : Nat) : q.execute.1.filter (fun p => p.1 == d) = q.due d 0 := by
  unfold due
  rw [if_pos (Nat.zero_lt_of_lt h.next_lt), Nat.add_zero, Nat.mod_eq_of_lt h.next_lt]
  rfl

/-- An `execute` brings every pending pair one place nearer, and puts an empty slot last (R306). -/
theorem Inv.due_execute (h : q.Inv) (d k : Nat) : q.execute.2.due d k = q.due d (k + 1) := by
  have hring : ((q.next + 1) % q.depth + k) % q.depth = (q.next + (k + 1)) % q.depth := by
    rw [Nat.mod_add_mod, Nat.add_assoc, Nat.add_comm 1 k]
  unfold due
  rw [execute_depth, execute_next, hring, slot_execute h.next_lt_length]
  by_cases hk : k < q.depth
  · simp only [if_pos hk, ring_succ_eq_start h.next_lt hk]
    by_cases hturn : k + 1 = q.depth
    · rw [if_pos hturn, if_neg (by omega), List.filter_nil]
    · rw [if_neg hturn, if_pos (by omega)]
  · rw [if_neg hk, if_neg (by omega)]

/-- A push makes its pair, and no other of its destination, due after its delay (R302, R304). -/
theorem Inv.due_push (h : q.Inv) (ht : q.push d v delay = .ok t) (k : Nat) :
    t.due d k = if k = delay then [(d, v)] else [] := by
  obtain ⟨hdelay, _⟩ := push_cases ht
  obtain ⟨hdepth, _, _, hnext⟩ := push_constants ht
  unfold due
  rw [hdepth, hnext]
  by_cases hk : k < q.depth
  · simp only [if_pos hk, h.slot_push ht (h.ring_lt k), ring_inj hk hdelay]
    have hstale : ((q.slot ((q.next + k) % q.depth)).filter (fun p => p.1 != d)).filter (fun p => p.1 == d) = [] := by
      simp [List.filter_filter]
    split
    · rw [List.filter_append, hstale]
      simp
    · exact hstale
  · rw [if_neg hk, if_neg (by omega)]

/-- A push to another destination leaves what is due as it was. -/
theorem Inv.due_push_other (h : q.Inv) (ht : q.push d' v delay = .ok t) (hne : d' ≠ d) (k : Nat) :
    t.due d k = q.due d k := by
  obtain ⟨hdepth, _, _, hnext⟩ := push_constants ht
  unfold due
  rw [hdepth, hnext]
  by_cases hk : k < q.depth
  · rw [if_pos hk, if_pos hk, h.slot_push ht (h.ring_lt k)]
    have hkept (l : List (Nat × Byte)) :
        (l.filter (fun p => p.1 != d')).filter (fun p => p.1 == d) = l.filter (fun p => p.1 == d) := by
      rw [List.filter_filter]
      refine List.filter_congr fun p _ => ?_
      by_cases hp : p.1 = d
      · simp [hp, hne.symm]
      · simp [hp]
    split
    · rw [List.filter_append, hkept]
      simp [hne]
    · exact hkept _
  · rw [if_neg hk, if_neg hk]

/-- A run that begins with a push and does not halt: the push succeeds, and the run goes on from there. -/
theorem runQueue_push {ops : List QueueOp} {log : List (List (Nat × Byte))}
    (h : runQueue (.push d v delay :: ops) q = .ok (log, t)) :
    ∃ s, q.push d v delay = .ok s ∧ runQueue ops s = .ok (log, t) := by
  unfold runQueue at h
  split at h
  · next s hs => exact ⟨s, hs, h⟩
  · cases h

/-- A run that begins with an `execute`: its calls come first in the log. -/
theorem runQueue_execute {ops : List QueueOp} {log : List (List (Nat × Byte))}
    (h : runQueue (.execute :: ops) q = .ok (log, t)) :
    ∃ log', runQueue ops q.execute.2 = .ok (log', t) ∧ log = q.execute.1 :: log' := by
  unfold runQueue at h
  split at h
  · next log' s hs =>
    cases h
    exact ⟨log', hs, rfl⟩
  · cases h

/-- A run that pushes nothing to a destination hands out for it, `execute` by `execute`, what was due at its start. -/
theorem Inv.runQueue_calls {ops : List QueueOp} {log : List (List (Nat × Byte))}
    (h : q.Inv) (hother : ∀ d' v' n', QueueOp.push d' v' n' ∈ ops → d' ≠ d) (hrun : runQueue ops q = .ok (log, t))
    {calls : List (Nat × Byte)} (hk : log[k]? = some calls) : calls.filter (fun p => p.1 == d) = q.due d k := by
  induction ops generalizing q log k with
  | nil =>
    cases hrun
    cases hk
  | cons op ops ih =>
    have hrest : ∀ d' v' n', QueueOp.push d' v' n' ∈ ops → d' ≠ d :=
      fun d' v' n' hmem => hother d' v' n' (List.mem_cons_of_mem _ hmem)
    cases op with
    | push d' v' n =>
      obtain ⟨s, hs, hrun'⟩ := runQueue_push hrun
      rw [← h.due_push_other hs (hother d' v' n List.mem_cons_self) k]
      exact ih (h.push hs) hrest hrun' hk
    | execute =>
      obtain ⟨log', hrun', rfl⟩ := runQueue_execute hrun
      cases k with
      | zero =>
        cases hk
        exact h.execute_calls d
      | succ k =>
        rw [← h.due_execute d k]
        exact ih h.execute hrest hrun' hk

/-- Settles O51: the push makes the pair due after its delay, and the run hands out what is due. -/
theorem queueLatency : Obligations.QueueLatency := by
  unfold Obligations.QueueLatency
  intro q t d v delay h ht ops hother log u hrun k calls hk
  rw [Inv.runQueue_calls (h.push ht) hother hrun hk, h.due_push ht]

end DelayQueue

end Sys2Proof.Machine
end

section
/-! Requests, the reset sequence and the NMI and IRQ sequences (60_exceptions.md, 70_reset_and_hazards.md): each
sequence as a run of reads and pushes (R354, R390), `reset()` (R391), and `RTI` after an entry (R357). -/

namespace Sys2Proof.Machine

open Sys2Proof.Spec

variable {s t u w : State}

/-! ## The reset sequence -/

/-- Reads do not look at the reset latch. -/
theorem ReadsOnly.withResetPending {n : Nat} (h : ReadsOnly n s t) (pending : Bool) :
    ReadsOnly n { s with resetPending := pending } { t with resetPending := pending } := by
  obtain ⟨c, dv, d, e, hh, tr, rfl, hrest⟩ := h
  exact ⟨c, dv, d, e, hh, tr, rfl, hrest⟩

/-- The vector's two cycles are two reads more, with `I` set and `PC` loaded (R354, R390). -/
theorem ReadsOnly.throughVector {n : Nat} (h : ReadsOnly n s t) (vec : Addr) :
    ReadsOnly (n + 2) { s with P := { s.P with I := true }, PC := (throughVector vec t).PC } (throughVector vec t) := by
  obtain ⟨lo, hi, u, hreads, heq, -⟩ := throughVector_reads vec t
  rw [heq]
  rw [h.P] at hreads
  exact ((h.withP _).trans hreads).withPC _

theorem throughVector_trace (vec : Addr) (s : State) :
    ∃ lo hi, (throughVector vec s).PC = mkAddr hi lo ∧
      (throughVector vec s).trace = s.trace ++ [Access.rd vec lo, Access.rd (vec + 1) hi] := by
  obtain ⟨lo, hi, t, -, heq, htrace⟩ := throughVector_reads vec s
  rw [heq]
  exact ⟨lo, hi, rfl, htrace⟩

/-- A vector in RAM is the address that `PC` is loaded with. -/
theorem throughVector_PC {vec : Addr} {lo hi : Byte} (hlo : ramByte s vec = some lo)
    (hhi : ramByte s (vec + 1) = some hi) : (throughVector vec s).PC = mkAddr hi lo := by
  have hhi' : ramByte { (busRead vec s).2 with P := { (busRead vec s).2.P with I := true } } (vec + 1) = some hi :=
    ((ReadsOnly.read vec s).ramByte _).trans hhi
  rw [throughVector, busRead_of_ramByte hhi', busRead_of_ramByte hlo]

/-- The reset sequence up to its vector (R390). -/
def stackSkipped (s : State) : State :=
  let s₁ := { dummyRead s.PC s with resetPending := false }
  let s₂ := dummyRead s.PC s₁
  let s₃ := { dummyRead (stackAddr s.S) s₂ with S := s.S - 1 }
  let s₄ := { dummyRead (stackAddr (s.S - 1)) s₃ with S := s.S - 2 }
  { dummyRead (stackAddr (s.S - 2)) s₄ with S := s.S - 3 }

theorem afterReset_eq (s : State) : afterReset s = throughVector resetVector (stackSkipped s) := rfl

/-- Up to its vector the reset sequence is five reads, with the latch cleared and `S` three lower (R390). -/
theorem stackSkipped_reads (s : State) :
    ReadsOnly 5 { s with resetPending := false, S := s.S - 3 } (stackSkipped s) := by
  have hfirst := (ReadsOnly.dummy s.PC s).withResetPending false
  have hthird := ((hfirst.trans (.dummy s.PC _)).trans (.dummy (stackAddr s.S) _)).withS (s.S - 1)
  have hfourth := (hthird.trans (.dummy (stackAddr (s.S - 1)) _)).withS (s.S - 2)
  exact (hfourth.trans (.dummy (stackAddr (s.S - 2)) _)).withS (s.S - 3)

theorem stackSkipped_trace (s : State) :
    ∃ v₁ v₂ v₃ v₄ v₅, (stackSkipped s).trace = s.trace ++
      readsAt [s.PC, s.PC, stackAddr s.S, stackAddr (s.S - 1), stackAddr (s.S - 2)] [v₁, v₂, v₃, v₄, v₅] := by
  simp only [stackSkipped, dummyRead, busRead_trace, List.append_assoc, List.cons_append, List.nil_append]
  exact ⟨_, _, _, _, _, rfl⟩

/-- The reset sequence is seven reads: what it changes beside is the latch, `S`, `I` and `PC` (R390). -/
theorem afterReset_reads (s : State) :
    ReadsOnly 7 { s with resetPending := false, S := s.S - 3, P := { s.P with I := true }, PC := (afterReset s).PC }
      (afterReset s) := by
  rw [afterReset_eq]
  exact (stackSkipped_reads s).throughVector resetVector

theorem afterReset_trace (s : State) :
    ∃ v₁ v₂ v₃ v₄ v₅ lo hi, (afterReset s).PC = mkAddr hi lo ∧ (afterReset s).trace = s.trace ++
      readsAt [s.PC, s.PC, stackAddr s.S, stackAddr (s.S - 1), stackAddr (s.S - 2), 0xFFFC#16, 0xFFFD#16]
        [v₁, v₂, v₃, v₄, v₅, lo, hi] := by
  obtain ⟨v₁, v₂, v₃, v₄, v₅, hskipped⟩ := stackSkipped_trace s
  obtain ⟨lo, hi, hPC, hvector⟩ := throughVector_trace resetVector (stackSkipped s)
  refine ⟨v₁, v₂, v₃, v₄, v₅, lo, hi, hPC, ?_⟩
  rw [afterReset_eq, hvector, hskipped, List.append_assoc]
  rfl

/-- A reset vector in RAM is where the reset sequence goes on (R356, R390). -/
theorem afterReset_PC {lo hi : Byte} (hlo : ramByte s 0xFFFC#16 = some lo) (hhi : ramByte s 0xFFFD#16 = some hi) :
    (afterReset s).PC = mkAddr hi lo :=
  throughVector_PC (((stackSkipped_reads s).ramByte _).trans hlo) (((stackSkipped_reads s).ramByte _).trans hhi)

theorem step_afterReset (hidle : s.phase = .idle) (hpending : s.resetPending = true) :
    step s = settle (.next (atBoundary (afterReset s.beginSequence))) := by
  rw [step_reset hidle hpending, resetCycles_run]
  rfl

theorem step_afterReset_next (hidle : s.phase = .idle) (hpending : s.resetPending = true) (ht : step s = .next t) :
    atBoundary (afterReset s.beginSequence) = t :=
  Host.Outcome.next.inj (settle_next.mp ((step_afterReset hidle hpending).symm.trans ht)).1

/-- No halt is under way after a sequence that kept the state quiet (R362). -/
theorem settle_of_quiet (h : t.quiet = true) : settle (.next (atBoundary t)) = .next (atBoundary t) :=
  settle_of_next rfl (quiet_iff.mp h).1

/-- Settles O10: the sequence is seven reads, so that a quiet state has no halt under way after it. -/
theorem resetSequence : Obligations.ResetSequence := by
  unfold Obligations.ResetSequence
  intro s hidle hpending
  have hstep := step_afterReset hidle hpending
  have hreads := afterReset_reads s.beginSequence
  have htrace := afterReset_trace s.beginSequence
  have hPC : ∀ lo hi, ramByte s 0xFFFC#16 = some lo → ramByte s 0xFFFD#16 = some hi →
      (afterReset s.beginSequence).PC = mkAddr hi lo := fun _ _ hlo hhi => afterReset_PC hlo hhi
  have hnext : ∀ t, step s = .next t → atBoundary (afterReset s.beginSequence) = t :=
    fun _ => step_afterReset_next hidle hpending
  generalize afterReset s.beginSequence = r at hstep hreads htrace hPC hnext ⊢
  refine ⟨hstep, fun hquiet => hstep.trans (settle_of_quiet (hreads.quiet hquiet)), fun t ht => ?kept,
    fun lo hi hlo hhi t ht => hnext t ht ▸ hPC lo hi hlo hhi⟩
  case kept =>
    rw [← hnext t ht]
    exact ⟨hreads.S, hreads.P, hreads.A, hreads.X, hreads.Y, hreads.mem, hreads.dq, hreads.observer, hreads.irqLine,
      hreads.resetPending, rfl, rfl, htrace⟩

/-! ## `reset()` -/

theorem resetInput_eq (s : State) :
    resetInput s = { s with
      resetPending := true, nmiPending := false, phase := if s.phase = .fatal then .fatal else .idle } := by
  unfold resetInput
  cases s.phase <;> rfl

/-- Settles O17: outside `fatal` the phase becomes idle, from where the pending reset is taken. -/
theorem resetInput_anyTime : Obligations.ResetInput := by
  unfold Obligations.ResetInput
  refine fun s => ⟨resetInput_eq s, fun hs => step_afterReset ?_ rfl⟩
  rw [resetInput_eq]
  exact if_neg hs

/-! ## What a boundary recognises -/

/-- The priority of the requests, each by the inputs that make it the one recognised (R352, R353). -/
theorem request_priority (s : State) :
    (s.request = some .reset ↔ s.resetPending = true) ∧
    (s.request = some .nmi ↔ s.resetPending = false ∧ s.nmiPending = true) ∧
    (s.request = some .irq ↔ s.resetPending = false ∧ s.nmiPending = false ∧ s.irqLine = true ∧ s.P.I = false) ∧
    (s.request = none ↔ s.resetPending = false ∧ s.nmiPending = false ∧ (s.irqLine = false ∨ s.P.I = true)) := by
  unfold State.request
  cases s.resetPending with
  | true => simp
  | false =>
    cases s.nmiPending with
    | true => simp
    | false => cases s.irqLine <;> simp

theorem resetPending_of_request_ne (h : s.request ≠ some .reset) : s.resetPending = false :=
  Bool.eq_false_iff.mpr fun hpending => h ((request_priority s).1.mpr hpending)

/-- The reset sequence leaves the NMI latch; any other step that is not NMI's finds it clear (R352, R358). -/
theorem step_nmiPending (hidle : s.phase = .idle) (hother : s.request ≠ some .nmi) (ht : step s = .next t) :
    t.nmiPending = s.nmiPending := by
  obtain ⟨hnew, -⟩ := (noNewRequest_kept s).step ⟨id, id⟩ ht
  cases hpending : s.resetPending with
  | true =>
    rw [← step_afterReset_next hidle hpending ht, atBoundary_nmiPending]
    exact (afterReset_reads s.beginSequence).nmiPending
  | false =>
    have hnmi : s.nmiPending = false :=
      Bool.eq_false_iff.mpr fun h => hother ((request_priority s).2.1.mpr ⟨hpending, h⟩)
    exact (Bool.eq_false_iff.mpr fun h => Bool.eq_false_iff.mp hnmi (hnew h)).trans hnmi.symm

/-- A step that is not the reset sequence finds the reset latch clear, and leaves it so (R352, R358). -/
theorem step_resetPending (hother : s.request ≠ some .reset) (ht : step s = .next t) :
    t.resetPending = s.resetPending := by
  obtain ⟨-, hnew⟩ := (noNewRequest_kept s).step ⟨id, id⟩ ht
  have hreset := resetPending_of_request_ne hother
  exact (Bool.eq_false_iff.mpr fun h => Bool.eq_false_iff.mp hreset (hnew h)).trans hreset.symm

/-- A cycle of a sequence ends it or leaves it in progress (R113, R358). -/
theorem runCycle_phase {sq : Seq} (ht : runCycle sq s = .next t) :
    t.phase = .idle ∨ ∃ sq' : Seq, t.phase = .run sq' ∧ sq'.ir = sq.ir := by
  unfold runCycle at ht
  split at ht
  · next c cs hrest =>
    cases hc : c sq.q { s with phase := .idle } with
    | more q u => rw [hc] at ht; cases ht; exact .inr ⟨_, rfl, rfl⟩
    | done u => rw [hc] at ht; cases ht; exact .inl rfl
    | halt f => rw [hc] at ht; cases ht
  · cases ht
    exact .inr ⟨_, rfl, rfl⟩

/-- Settles O9: the request by its inputs, the latches by what each sequence clears, and a sequence in progress by its
cycle. -/
theorem boundaryRequests : Obligations.BoundaryRequests := by
  unfold Obligations.BoundaryRequests
  refine ⟨request_priority, fun s t hidle ht => ?kept, fun s t sq hrun ht => ?inProgress⟩
  case kept =>
    obtain ⟨-, -, hirq, -⟩ := (sameConstants_kept s).step (.refl s) ht
    exact ⟨hirq, fun hother => step_nmiPending hidle hother ht, fun hother => step_resetPending hother ht⟩
  case inProgress =>
    unfold clockStep at ht
    rw [hrun] at ht
    exact runCycle_phase (settle_next.mp ht).1

/-! ## The NMI and IRQ sequences -/

/-- Reads do not look at the NMI latch. -/
theorem ReadsOnly.withNmiPending {n : Nat} (h : ReadsOnly n s t) (pending : Bool) :
    ReadsOnly n { s with nmiPending := pending } { t with nmiPending := pending } := by
  obtain ⟨c, dv, d, e, hh, tr, rfl, hrest⟩ := h
  exact ⟨c, dv, d, e, hh, tr, rfl, hrest⟩

/-- IRQ pushes after two dummy reads of `PC` (R354). -/
theorem beforePushes_irq (s : State) : BeforePushes [s.PC, s.PC] s (dummyRead s.PC (dummyRead s.PC s)) := by
  refine ⟨⟨2, s.PC, s.nmiPending, (ReadsOnly.dummy s.PC s).trans (.dummy s.PC _)⟩,
    [(busRead s.PC s).1, (busRead s.PC (busRead s.PC s).2).1], rfl, ?_⟩
  simp only [dummyRead, busRead_trace, List.append_assoc]
  rfl

/-- NMI does as well, and clears its latch between them (R354). -/
theorem beforePushes_nmi (s : State) :
    BeforePushes [s.PC, s.PC] s (dummyRead s.PC { dummyRead s.PC s with nmiPending := false }) := by
  refine ⟨⟨2, s.PC, false, ((ReadsOnly.dummy s.PC s).withNmiPending false).trans (.dummy s.PC _)⟩,
    [(busRead s.PC s).1, (busRead s.PC { dummyRead s.PC s with nmiPending := false }).1], rfl, ?_⟩
  simp only [dummyRead, busRead_trace, List.append_assoc]
  rfl

/-- Pushes keep that no read can halt the block. -/
theorem pushBytes_quiet {vs : List Byte} (h : pushBytes vs s = .ok t) (hq : s.quiet = true) : t.quiet = true := by
  unfold State.quiet at hq ⊢
  rwa [pushBytes_halt h, pushBytes_observer h, pushBytes_platform h]

theorem throughVector_quiet (vec : Addr) (hq : s.quiet = true) : (throughVector vec s).quiet = true :=
  ((ReadsOnly.refl s).throughVector vec).quiet hq

theorem BeforePushes.quiet {pre : List Addr} (h : BeforePushes pre s u) (hq : s.quiet = true) : u.quiet = true := by
  obtain ⟨⟨n, pc, nmi, hreads⟩, -⟩ := h
  exact hreads.quiet hq

/-- A step that is the pushes and the vector of an entry from a quiet state whose slots accept a write answers the state
that they leave (R354). -/
theorem exists_step_entry {pre : List Addr} {vec : Addr} {v₁ v₂ v₃ : Byte} (h : BeforePushes pre s.beginSequence u)
    (hstep : step s = settle (endWrite ((pushBytes [v₁, v₂, v₃] u).map (throughVector vec)))) (hq : s.quiet = true)
    (hslots : stackAccepts s) :
    ∃ t, pushBytes [v₁, v₂, v₃] u = .ok t ∧ step s = .next (atBoundary (throughVector vec t)) := by
  obtain ⟨t, ht⟩ := h.exists_pushed (s := s.beginSequence) hslots v₁ v₂ v₃
  refine ⟨t, ht, ?_⟩
  rw [hstep, ht]
  exact settle_of_quiet (throughVector_quiet vec (pushBytes_quiet ht (h.quiet hq)))

theorem throughVector_nmiPending (vec : Addr) (s : State) : (throughVector vec s).nmiPending = s.nmiPending :=
  ((ReadsOnly.refl s).throughVector vec).nmiPending

/-- Settles O11: each sequence is the entry of an interrupt after two dummy reads. -/
theorem interruptEntry : Obligations.InterruptEntry := by
  unfold Obligations.InterruptEntry
  refine fun s hidle => ⟨fun hnmi => ⟨step_nmi hidle hnmi, fun hq hslots => ?nmi⟩,
    fun hirq => ⟨step_irq hidle hirq, fun hq hslots => ?irq⟩⟩
  case nmi =>
    have hbefore := beforePushes_nmi s.beginSequence
    obtain ⟨t, hpush, hnext⟩ := exists_step_entry hbefore (step_nmi hidle hnmi) hq hslots
    refine ⟨_, hnext, ?_, hbefore.entered hpush nmiVector⟩
    exact (throughVector_nmiPending nmiVector t).trans ((pushBytes_nmiPending hpush).trans (busRead_nmiPending _ _))
  case irq =>
    have hbefore := beforePushes_irq s.beginSequence
    obtain ⟨t, hpush, hnext⟩ := exists_step_entry hbefore (step_irq hidle hirq) hq hslots
    obtain ⟨-, -, hline, -⟩ := (sameConstants_kept s).step (.refl s) hnext
    exact ⟨_, hnext, hline, hbefore.entered hpush irqVector⟩

/-! ## `RTI` after an entry -/

/-- Three pushes to three cells of RAM leave the three bytes in their slots. -/
theorem pushBytes_triple_ramByte {v₁ v₂ v₃ : Byte} (h : pushBytes [v₁, v₂, v₃] s = .ok t) (hram : stackInRam s) :
    ramByte t (stackAddr s.S) = some v₁ ∧ ramByte t (stackAddr (s.S - 1)) = some v₂ ∧
      ramByte t (stackAddr (s.S - 2)) = some v₃ := by
  obtain ⟨a, b, c, ha, hb, hc, hab, hac, hbc⟩ := hram
  have hslot : s.S - 1 - 1 = s.S - 2 := BitVec.sub_sub ..
  obtain ⟨u, hu, hrest⟩ := pushBytes_cons h
  rw [← hslot] at hc ⊢
  constructor
  · refine pushBytes_ramByte_first h ha (List.forall_mem_cons.mpr ⟨?_, List.forall_mem_singleton.mpr ?_⟩)
    · rw [hb]
      exact fun heq => hab (Option.some.inj heq).symm
    · rw [hc]
      exact fun heq => hac (Option.some.inj heq).symm
  · rw [← busWrite_S hu] at hb hc ⊢
    exact pushBytes_pair_ramByte (s := { u with S := u.S - 1 }) hrest ((busWrite_ramCell hu _).trans hb)
      ((busWrite_ramCell hu _).trans hc) hbc

theorem stackAccepts_of_inRam (h : stackInRam s) : stackAccepts s := by
  obtain ⟨a, b, c, ha, hb, hc, -⟩ := h
  exact ⟨accepts_of_ramCell ha, accepts_of_ramCell hb, accepts_of_ramCell hc⟩

theorem BeforePushes.keeps_stackInRam {pre : List Addr} (h : BeforePushes pre s u) (hram : stackInRam s) :
    stackInRam u := by
  obtain ⟨⟨n, pc, nmi, hreads⟩, -⟩ := h
  unfold stackInRam at hram ⊢
  simp only [hreads.S, hreads.ramCell]
  exact hram

/-- `RTI` finds what an entry pushed, if the slots are three cells of RAM that stay as the entry left them (R357). -/
theorem BeforePushes.rti_restores {pre : List Addr} {b : Bool} {ret : Addr} (h : BeforePushes pre s u)
    (hpush : pushBytes [hiByte ret, loByte ret, pack b s.P] u = .ok t) (hram : stackInRam s) (hmem : w.mem = t.mem)
    (hplatform : w.platform = t.platform) (hS : w.S = s.S - 3) :
    (returned w).P = s.P ∧ (returned w).S = s.S ∧ (returned w).PC = ret := by
  obtain ⟨hhi, hlo, hstatus⟩ := pushBytes_triple_ramByte hpush (h.keeps_stackInRam hram)
  obtain ⟨⟨n, pc, nmi, hreads⟩, -⟩ := h
  have hSu : u.S = s.S := hreads.S
  have hslot₁ : w.S + 1 = s.S - 2 := by rw [hS]; bv_omega
  have hslot₂ : w.S + 2 = s.S - 1 := by rw [hS]; bv_omega
  have hslot₃ : w.S + 3 = s.S := by rw [hS]; bv_omega
  rw [hSu, ← ramByte_congr hmem hplatform] at hhi hlo hstatus
  rw [← hslot₁] at hstatus
  rw [← hslot₂] at hlo
  rw [← hslot₃] at hhi
  have hreturned := returned_reads w
  refine ⟨?_, hreturned.S.trans hslot₃, ?_⟩
  · exact hreturned.P.trans ((statusPulled_P hstatus).trans (unpack_pack b s.P))
  · rw [returned_PC hlo hhi, mkAddr_hiByte_loByte]

/-- `RTI`, from wherever `PC` is after an entry, restores what was interrupted (R357). -/
theorem BeforePushes.exec_rti {pre : List Addr} {b : Bool} {ret : Addr} (h : BeforePushes pre s u)
    (hpush : pushBytes [hiByte ret, loByte ret, pack b s.P] u = .ok t) (hram : stackInRam s) (vec p : Addr) :
    ∃ r, exec .rti { atBoundary (throughVector vec t) with PC := p } = .next r ∧
      r.P = s.P ∧ r.S = s.S ∧ r.PC = ret ∧ r.A = s.A ∧ r.X = s.X ∧ r.Y = s.Y := by
  obtain ⟨-, -, hS, hA, hX, hY, -⟩ := h.entered hpush vec
  have hvector := (ReadsOnly.refl t).throughVector vec
  have hmem := hvector.mem
  have hplatform := hvector.platform
  generalize throughVector vec t = e at hS hA hX hY hmem hplatform ⊢
  have hexec := exec_rti_next { atBoundary e with PC := p }
  have hreturned := returned_reads { atBoundary e with PC := p }
  obtain ⟨hrP, hrS, hrPC⟩ := h.rti_restores (w := { atBoundary e with PC := p }) hpush hram hmem hplatform hS
  generalize returned { atBoundary e with PC := p } = r at hexec hreturned hrP hrS hrPC
  exact ⟨_, hexec, hrP, hrS, hrPC, hreturned.A.trans hA, hreturned.X.trans hX, hreturned.Y.trans hY⟩

/-- Settles O14: each entry is pushes to three cells of RAM, from which `RTI` restores what was interrupted. -/
theorem interruptRoundTrip : Obligations.InterruptRoundTrip := by
  unfold Obligations.InterruptRoundTrip
  refine fun s hram => ⟨?brk, fun hq hidle hrequest => ?interrupt⟩
  case brk =>
    have hbefore := beforePushes_brk s
    obtain ⟨t, hpush⟩ := hbefore.exists_pushed (stackAccepts_of_inRam hram) (hiByte (s.PC + 1)) (loByte (s.PC + 1))
      (pack true s.P)
    exact ⟨_, by rw [exec_brk_endWrite, hpush]; rfl, fun p => hbefore.exec_rti hpush hram irqVector p⟩
  case interrupt =>
    have hram' : stackInRam s.beginSequence := hram
    rcases hrequest with hnmi | hirq
    · have hbefore := beforePushes_nmi s.beginSequence
      obtain ⟨t, hpush, hnext⟩ := exists_step_entry hbefore (step_nmi hidle hnmi) hq (stackAccepts_of_inRam hram)
      exact ⟨_, hnext, fun p => hbefore.exec_rti hpush hram' nmiVector p⟩
    · have hbefore := beforePushes_irq s.beginSequence
      obtain ⟨t, hpush, hnext⟩ := exists_step_entry hbefore (step_irq hidle hirq) hq (stackAccepts_of_inRam hram)
      exact ⟨_, hnext, fun p => hbefore.exec_rti hpush hram' irqVector p⟩

end Sys2Proof.Machine
end

section
/-! The cartridge (51_cartridge.md): a write to ROM (R325), the fixed small ROM (R323, R324), the multi-load header
(R327, R328), hotspot bank switching (R330, R331), and `load` and `detect` (R321, R322). -/

namespace Sys2Proof.Machine

open Sys2Proof.Spec

variable {s t : State} {a : Addr} {v : Byte} {c : Cartridge}

/-! ## A write to ROM -/

/-- The CPU's address `a` is one of the ROM of cartridge `c`: of the fixed small ROM or of a hotspot scheme, and no
hotspot (R325, R331). -/
structure RomAt (c : Cartridge) (a : Addr) (s : State) : Prop where
  route : s.route a = .cart
  cart : s.cart = some c
  notMultiLoad : ∀ l, c.scheme ≠ .multiLoad l
  notSwitching : c.switchesAt (s.busAddr a) = false

/-- A cartridge takes no write to its ROM (R325). -/
theorem RomAt.write_eq_none (h : RomAt c a s) (v : Byte) : c.write (s.busAddr a) v = none := by
  obtain ⟨-, -, hnot, hsw⟩ := h
  unfold Cartridge.write
  unfold Cartridge.switchesAt at hsw
  cases hs : c.scheme with
  | fixedRom w pad => rfl
  | hotspot w banks hot onRead ib oob =>
    rw [hs] at hsw
    dsimp only at hsw ⊢
    rw [Option.isSome_eq_false_iff.mp hsw |> Option.isNone_iff_eq_none.mp]
    rfl
  | multiLoad l => exact absurd hs (hnot l)

/-- A read of the ROM leaves ROM there: at most the bank changes. -/
theorem RomAt.read (h : RomAt c a s) : RomAt (c.read (s.busAddr a)).2 a (busRead a s).2 := by
  obtain ⟨hscheme, -⟩ := c.read_keeps (s.busAddr a)
  refine ⟨(busRead_route a a s).trans h.route, by rw [busRead_cartridge h.route h.cart], ?_, ?_⟩
  · rw [hscheme]
    exact h.notMultiLoad
  · have hsw := h.notSwitching
    unfold Cartridge.switchesAt at hsw ⊢
    rwa [hscheme, busRead_busAddr]

/-- A read of the ROM is no trap (R324, R334). -/
theorem RomAt.read_keeps (h : RomAt c a s) :
    (busRead a s).2.traps = s.traps ∧ (busRead a s).2.halt = s.halt ∧ (busRead a s).2.devices = s.devices :=
  busRead_own (by rw [h.route]; rfl)

/-- The state after a write to ROM whose trap an observer receives (R325, R362). -/
def trappedWrite (a : Addr) (v : Byte) (s : State) : State :=
  { s with traps := s.traps ++ [trapEvent .invalidWrite .cartridge], trace := s.trace ++ [Access.wr a v] }

theorem RomAt.deviceWrite (h : RomAt c a s) (v : Byte) :
    s.deviceWrite a v = raiseTrap .invalidWrite .cartridge s := by
  simp only [State.deviceWrite, h.route, h.cart, h.write_eq_none v]

/-- With an observer a write to ROM is one event (R325). -/
theorem RomAt.busWrite_observed (h : RomAt c a s) (ho : s.observer = true) (v : Byte) :
    busWrite a v s = .ok (trappedWrite a v s) := by
  have htraced : RomAt c a { s with trace := s.trace ++ [Access.wr a v] } :=
    ⟨h.route, h.cart, h.notMultiLoad, h.notSwitching⟩
  exact busWrite_ok.mpr ((htraced.deviceWrite v).trans (if_pos ho))

/-- Without one it halts the block (R325, R363). -/
theorem RomAt.busWrite_unobserved (h : RomAt c a s) (ho : s.observer = false) (hh : s.halt = false) (v : Byte) :
    busWrite a v s = .error (.trapWithoutObserver .invalidWrite) :=
  (busWrite_trap v hh h.route h.cart (h.write_eq_none v)).trans (if_neg (Bool.eq_false_iff.mp ho))

theorem exec_staAbs_eq (a : Addr) (s : State) : exec (.staAbs a) s = endWrite (busWrite a s.A s) :=
  writeProg_exec3 0x8D#8 (md := .abs) nofun State.A a s

/-- `INC` writes the byte it read back, and then the new one (R133). -/
theorem exec_incAbs_eq (a : Addr) (s : State) :
    exec (.incAbs a) s =
      endWrite ((busWrite a (busRead a s).1 (busRead a s).2).bind fun t =>
        (busWrite a (opInc (busRead a s).1 t).1 t).map fun u => (opInc (busRead a s).1 u).2) :=
  rmwProg_exec3 0xEE#8 (md := .abs) nofun opInc a s

/-- With an observer `STA` to ROM completes with one event (R325). -/
theorem RomAt.exec_staAbs (h : RomAt c a s) (ho : s.observer = true) :
    exec (.staAbs a) s = .next (atBoundary (trappedWrite a s.A s)) := by
  rw [exec_staAbs_eq, h.busWrite_observed ho]
  rfl

/-- With an observer the two writes of a read-modify-write instruction to ROM are an event each (R133, R325). -/
theorem RomAt.writeBack_observed {f : RmwOp} {m : Byte} (h : RomAt c a s) (ho : s.observer = true)
    (hf : ∀ m t, (f m t).2.traps = t.traps ∧ (f m t).2.mem = t.mem ∧ (f m t).2.cart = t.cart) :
    ∃ u, endWrite ((busWrite a m s).bind fun t => (busWrite a (f m t).1 t).map fun u => (f m u).2) = .next u ∧
      u.traps = s.traps ++ [trapEvent .invalidWrite .cartridge, trapEvent .invalidWrite .cartridge] ∧
      u.mem = s.mem ∧ u.cart = s.cart := by
  have hback : RomAt c a (trappedWrite a m s) := ⟨h.route, h.cart, h.notMultiLoad, h.notSwitching⟩
  rw [h.busWrite_observed ho, Except.bind, hback.busWrite_observed ho]
  obtain ⟨htraps, hmem, hcart⟩ := hf m (trappedWrite a (f m (trappedWrite a m s)).1 (trappedWrite a m s))
  exact ⟨_, rfl, htraps.trans (List.append_assoc ..), hmem, hcart⟩

/-- Settles O45: each write to ROM is one event or the halt, and the read of `INC` before them is no trap. -/
theorem romWrites : Obligations.RomWrites := by
  unfold Obligations.RomWrites
  intro a v s c hroute hcart hscheme hswitches
  have hrom : RomAt c a s := ⟨hroute, hcart, hscheme, hswitches⟩
  have hread := hrom.read
  have hobserver := busRead_observer a s
  have hmem := busRead_mem a s
  obtain ⟨htraps, hhalt, -⟩ := hrom.read_keeps
  have hinc := exec_incAbs_eq a s
  generalize busRead a s = r at hread hobserver hmem htraps hhalt hinc
  refine ⟨fun ho => ⟨hrom.busWrite_observed ho v, ⟨_, hrom.exec_staAbs ho, rfl, rfl, rfl⟩, ?inc⟩,
    fun ho hh => ⟨hrom.busWrite_unobserved ho hh v, ?staHalts, ?incHalts⟩⟩
  case inc =>
    obtain ⟨u, hu, hutraps, humem, hucart⟩ :=
      hread.writeBack_observed (f := opInc) (m := r.1) (hobserver.trans ho) fun _ _ => ⟨rfl, rfl, rfl⟩
    refine ⟨u, hinc.trans hu, htraps ▸ hutraps, humem.trans hmem, ?_⟩
    rw [hucart, hread.cart]
    exact congrArg some (c.read_keeps _).2
  case staHalts => rw [exec_staAbs_eq, hrom.busWrite_unobserved ho hh]; rfl
  case incHalts => rw [hinc, hread.busWrite_unobserved (hobserver.trans ho) (hhalt.trans hh)]; rfl

/-! ## The fixed small ROM -/

theorem pos_of_isWindow {w : Nat} (h : isWindow w = true) : 0 < w := by
  unfold isWindow at h
  exact Nat.pos_of_ne_zero (bne_iff_ne.mp (Bool.and_eq_true_iff.mp h).1)

theorem fixedRomBytes_length (w : Nat) (pad : Byte) (image : List Byte) : (fixedRomBytes w pad image).length = w := by
  simp only [fixedRomBytes, List.length_append, List.length_replicate, List.length_drop]
  omega

/-- The top bytes of the window are those of the image (R323). -/
theorem fixedRomBytes_top {w k : Nat} {image : List Byte} (pad : Byte) (hw : k < w) (hk : k < image.length) :
    (fixedRomBytes w pad image)[w - 1 - k]? = image[image.length - 1 - k]? := by
  unfold fixedRomBytes
  rw [List.getElem?_append_right (by rw [List.length_replicate]; omega), List.getElem?_drop, List.length_replicate]
  congr 1
  omega

/-- The bytes below the image are padding (R323). -/
theorem fixedRomBytes_pad {w j : Nat} {image : List Byte} (pad : Byte) (hj : j < w - image.length) :
    (fixedRomBytes w pad image)[j]? = some pad := by
  unfold fixedRomBytes
  rw [List.getElem?_append_left (by rwa [List.length_replicate]), List.getElem?_replicate_of_lt hj]

theorem some_getD_eq {α : Type} {l : List α} {n : Nat} (d : α) (h : n < l.length) : some (l.getD n d) = l[n]? := by
  rw [List.getD_eq_getElem _ _ h, List.getElem?_eq_getElem h]

theorem build_fixedRom {w : Nat} (pad : Byte) {image : List Byte} (draw : Nat) (hw : isWindow w = true)
    (himage : image ≠ []) : Scheme.build (.fixedRom w pad) image draw =
      some { scheme := .fixedRom w pad, rom := fixedRomBytes w pad image, bank := .none } :=
  if_neg (by simp [himage, hw])

/-- Settles O47: the bytes of the window by their distance from its top, and a read modulo the window. -/
theorem fixedRom : Obligations.FixedRom := by
  unfold Obligations.FixedRom
  intro w pad image draw hw
  have hlength := fixedRomBytes_length w pad image
  refine ⟨fun hempty => if_pos (.inl hempty), fun himage => ⟨_, build_fixedRom pad draw hw himage, hlength, rfl,
    fun k => fixedRomBytes_top pad, fun j => fixedRomBytes_pad pad, fun a => ⟨?_, rfl, rfl⟩⟩⟩
  exact some_getD_eq pad (hlength.symm ▸ Nat.mod_lt _ (pos_of_isWindow hw))

/-! ## The multi-load header -/

theorem verifyHeader_iff (h : List Byte) : verifyHeader h = true ↔ (h.map BitVec.toNat).sum % 256 = 0x55 := beq_iff_eq

/-- Another byte at one place: the sum loses the old byte and gains the new one. -/
theorem sum_toNat_set {h : List Byte} {i : Nat} (hi : i < h.length) (b : Byte) :
    ((h.set i b).map BitVec.toNat).sum + h[i].toNat = (h.map BitVec.toNat).sum + b.toNat := by
  rw [List.map_set, List.sum_set, if_pos (by rwa [List.length_map])]
  have hsplit := List.sum_take_add_sum_drop (h.map BitVec.toNat) i
  rw [List.drop_eq_getElem_cons (by rwa [List.length_map]), List.sum_cons, List.getElem_map] at hsplit
  omega

/-- A verified header with one byte changed fails: two bytes with one sum modulo 256 are equal (R328). -/
theorem verifyHeader_set {h : List Byte} {i : Nat} {b : Byte} (hv : verifyHeader h = true) (hi : i < h.length)
    (hb : h[i] ≠ b) : verifyHeader (h.set i b) = false := by
  rw [Bool.eq_false_iff]
  intro hset
  rw [verifyHeader_iff] at hv hset
  have hsum := sum_toNat_set hi b
  have hold := h[i].isLt
  have hnew := b.isLt
  exact hb (BitVec.eq_of_toNat_eq (by omega))

/-- Bytes at successive places of a list. -/
theorem map_range_getD {α : Type} {l : List α} {m n : Nat} (d : α) (h : m + n ≤ l.length) :
    (List.range n).map (fun o => l.getD (m + o) d) = (l.drop m).take n := by
  refine List.ext_getElem (by simp; omega) fun i hi _ => ?_
  have hi' : i < n := by simpa using hi
  have hlt : m + i < l.length := by omega
  simp [hlt]

/-- Settles O48: a header with one byte changed by the sum of its bytes, and the fields by their offsets. -/
theorem headerCheck : Obligations.HeaderCheck := by
  unfold Obligations.HeaderCheck
  refine ⟨fun h hlength => ⟨verifyHeader_iff h, fun hv i b hi hb => ?changed⟩, fun load hload => ?fields⟩
  case changed =>
    have hi' : i < h.length := hlength ▸ hi
    rw [List.getElem?_eq_getElem hi'] at hb
    exact verifyHeader_set hv hi' fun heq => hb (congrArg some heq)
  case fields =>
    have hbyte : ∀ o, o < 8 → some (HeaderLayout.standard.byte o load) = load[0x2000 + o]? := fun o ho =>
      some_getD_eq (n := 0x2000 + o) 0#8 (by omega)
    have hlow : ∀ hi lo, some (loByte (mkAddr hi lo)) = some lo := fun hi lo => congrArg some (loByte_mkAddr hi lo)
    have hhigh : ∀ hi lo, some (hiByte (mkAddr hi lo)) = some hi := fun hi lo => congrArg some (hiByte_mkAddr hi lo)
    refine ⟨(hlow ..).trans (hbyte 0 (by decide)), (hhigh ..).trans (hbyte 1 (by decide)), hbyte 2 (by decide),
      hbyte 3 (by decide), hbyte 4 (by decide), hbyte 5 (by decide), (hlow ..).trans (hbyte 6 (by decide)),
      (hhigh ..).trans (hbyte 7 (by decide)), rfl, rfl, ?designated⟩
    case designated => exact map_range_getD (m := 0x2000) (n := 8) 0#8 (by omega)

/-! ## Hotspot bank switching -/

/-- The byte of a bank at a window offset lies in the ROM (R330). -/
theorem bankOffset_lt {w banks k o : Nat} (hk : k < banks) (ho : o < w) : k * w + o < banks * w := by
  calc k * w + o < k * w + w := Nat.add_lt_add_left ho _
    _ = (k + 1) * w := (Nat.succ_mul k w).symm
    _ ≤ banks * w := Nat.mul_le_mul_right w hk

section Hotspot

variable {w banks b k : Nat} {hot : List (Nat × Nat)} {onRead : Bool} {ib : Option Nat} {oob : Byte} {rom : List Byte}

/-- What `wf` says of a hotspot cartridge: a window, `banks * w` bytes of ROM, and a bank in range (R330). -/
theorem Cartridge.wf_hotspot_iff :
    Cartridge.wf ⟨.hotspot w banks hot onRead ib oob, rom, .index b⟩ = true ↔
      hotspotTuple w banks hot ib = true ∧ rom.length = banks * w ∧ b < banks := by
  change (hotspotTuple w banks hot ib && rom.length == banks * w && Bank.index b == .index b &&
    decide (b < banks)) = true ↔ _
  simp [and_assoc]

theorem pos_of_hotspotTuple (h : hotspotTuple w banks hot ib = true) : 0 < w ∧ 0 < banks := by
  unfold hotspotTuple at h
  simp only [Bool.and_eq_true, bne_iff_ne] at h
  obtain ⟨⟨⟨hwindow, hbanks⟩, -⟩, -⟩ := h
  exact ⟨pos_of_isWindow hwindow, Nat.pos_of_ne_zero hbanks⟩

/-- The bank in force at a read: the hotspot's, where there is one and reads switch (R330). -/
theorem Cartridge.read_hotspot (a : Addr) :
    Cartridge.read a ⟨.hotspot w banks hot onRead ib oob, rom, .index b⟩ =
      (let k := if onRead then (hotspotAt hot (a.toNat % w)).getD b else b
       (rom.getD (k * w + a.toNat % w) oob, ⟨.hotspot w banks hot onRead ib oob, rom, .index k⟩)) := rfl

/-- A bank in range gives a byte of the ROM, not `oob` (R330). -/
theorem some_bank_byte (hw : 0 < w) (hlength : rom.length = banks * w) (hk : k < banks) (a : Addr) :
    some (rom.getD (k * w + a.toNat % w) oob) = rom[k * w + a.toNat % w]? :=
  some_getD_eq oob (hlength ▸ bankOffset_lt hk (Nat.mod_lt _ hw))

end Hotspot

/-- Settles O49: a read and a write by whether the address is a hotspot; every bank they select is in range. -/
theorem hotspots : Obligations.Hotspots := by
  unfold Obligations.Hotspots
  intro w banks hot onRead ib oob rom b a v
  dsimp only
  intro hwf
  obtain ⟨htuple, hlength, hb⟩ := Cartridge.wf_hotspot_iff.mp hwf
  obtain ⟨hw, -⟩ := pos_of_hotspotTuple htuple
  refine ⟨fun k hread hk => ?switch, fun hstay => ?stay, fun k hk => ⟨hotspotAt_lt htuple hk, ?write⟩,
    fun hnone => ?trap⟩
  case switch =>
    have hbank : (if onRead then (hotspotAt hot (a.toNat % w)).getD b else b) = k := by
      rw [if_pos hread, hk, Option.getD_some]
    rw [Cartridge.read_hotspot, hbank]
    exact ⟨rfl, some_bank_byte hw hlength (hotspotAt_lt htuple hk) a⟩
  case stay =>
    have hbank : (if onRead then (hotspotAt hot (a.toNat % w)).getD b else b) = b := by
      rcases hstay with hread | hnone
      · rw [hread]
        rfl
      · rw [hnone, Option.getD_none, ite_self]
    rw [Cartridge.read_hotspot, hbank]
    exact ⟨rfl, some_bank_byte hw hlength hb a⟩
  case write => exact congrArg (Option.map _) hk
  case trap => exact congrArg (Option.map _) hnone

/-! ## `load` and `detect` -/

/-- The conditions under which the constructor of a variant takes an image (R321 step 2, R323, R328, R330). -/
def Scheme.Takes (image : List Byte) : Scheme → Prop
  | .fixedRom w _ => image ≠ [] ∧ isWindow w = true
  | .hotspot w banks hot _ ib _ => hotspotTuple w banks hot ib = true ∧ image.length = banks * w
  | .multiLoad l => l.wf = true ∧ ∃ n, 0 < n ∧ image.length = n * l.loadSize ∧
      ∀ k, k < n → verifyHeader (l.designated (l.load k image)) = true

theorem verifyLoads_iff (l : HeaderLayout) (n : Nat) (image : List Byte) :
    verifyLoads l n image = true ↔ ∀ k, k < n → verifyHeader (l.designated (l.load k image)) = true := by
  simp [verifyLoads]

/-- A layout with a byte inside its load has a load of some size (R327). -/
theorem HeaderLayout.loadSize_pos {l : HeaderLayout} (h : l.wf = true) : 0 < l.loadSize := by
  unfold HeaderLayout.wf at h
  simp only [List.cons_append, List.all_cons, Bool.and_eq_true, decide_eq_true_eq] at h
  omega

theorem build_isSome_iff (sc : Scheme) (image : List Byte) (draw : Nat) :
    (sc.build image draw).isSome = true ↔ sc.Takes image := by
  unfold Scheme.build Scheme.Takes
  cases sc with
  | fixedRom w pad => simp
  | hotspot w banks hot onRead ib oob => simp
  | multiLoad l =>
    simp only [Option.isSome_ite, verifyLoads_iff]
    refine and_congr_right fun hwf => ⟨fun ⟨hn, hlength, hverify⟩ => ⟨_, Nat.pos_of_ne_zero hn, hlength, hverify⟩, ?_⟩
    rintro ⟨n, hn, hlength, hverify⟩
    have hcount : image.length / l.loadSize = n := by
      rw [hlength, Nat.mul_div_cancel _ (HeaderLayout.loadSize_pos hwf)]
    rw [hcount]
    exact ⟨Nat.ne_of_gt hn, hlength, hverify⟩

/-- The bank in which a hotspot cartridge starts is in range, the scheme's own or a drawn one (R330). -/
theorem initialBank_lt {w banks : Nat} {hot : List (Nat × Nat)} {ib : Option Nat}
    (h : hotspotTuple w banks hot ib = true) (n : Nat) : ib.getD (n % banks) < banks := by
  obtain ⟨-, hbanks⟩ := pos_of_hotspotTuple h
  cases ib with
  | none => exact Nat.mod_lt n hbanks
  | some b =>
    unfold hotspotTuple at h
    exact decide_eq_true_eq.mp (Bool.and_eq_true_iff.mp h).2

/-- What a variant's constructor answers is a well-formed cartridge of its scheme (R321). -/
theorem build_wf {sc : Scheme} {image : List Byte} {draw : Nat} (h : sc.build image draw = some c) :
    c.scheme = sc ∧ c.wf = true := by
  cases sc with
  | fixedRom w pad =>
    obtain ⟨hbad, hc⟩ := Option.ite_none_left_eq_some.mp h
    cases hc
    obtain ⟨-, hw⟩ := not_or.mp hbad
    exact ⟨rfl, by simp [Cartridge.wf, fixedRomBytes_length, hw]⟩
  | hotspot w banks hot onRead ib oob =>
    obtain ⟨⟨htuple, hlength⟩, hc⟩ := Option.ite_none_right_eq_some.mp h
    cases hc
    exact ⟨rfl, Cartridge.wf_hotspot_iff.mpr ⟨htuple, hlength, initialBank_lt htuple _⟩⟩
  | multiLoad l =>
    obtain ⟨-, hc⟩ := Option.ite_none_right_eq_some.mp h
    cases hc
    exact ⟨rfl, by simp [Cartridge.wf, Cartridge.multiBank]⟩

/-- No variant takes an empty image (R323). -/
theorem not_takes_nil (sc : Scheme) : ¬ sc.Takes [] := by
  cases sc with
  | fixedRom w pad => exact fun h => h.1 rfl
  | hotspot w banks hot onRead ib oob =>
    rintro ⟨htuple, hlength⟩
    obtain ⟨hw, hbanks⟩ := pos_of_hotspotTuple htuple
    exact absurd hlength (Nat.mul_pos hbanks hw).ne
  | multiLoad l =>
    rintro ⟨hwf, n, hn, hlength, -⟩
    exact absurd hlength (Nat.mul_pos hn (HeaderLayout.loadSize_pos hwf)).ne

theorem build_nil (sc : Scheme) (draw : Nat) : sc.build [] draw = none := by
  rw [← Option.not_isSome_iff_eq_none, build_isSome_iff]
  exact not_takes_nil sc

/-- What `load` answers was built by the scheme declared, or with none declared by the one detected (R321, R322). -/
theorem load_eq_some {p : Platform} {image : List Byte} {scheme : Option Scheme} {draw : Nat}
    (h : Cartridge.load p image scheme draw = some c) :
    c.wf = true ∧ (∀ sc, scheme = some sc → c.scheme = sc) ∧ (scheme = none → detect p image = some c.scheme) := by
  cases scheme with
  | some sc =>
    obtain ⟨hscheme, hwf⟩ := build_wf h
    exact ⟨hwf, fun sc' hsc => hscheme.trans (Option.some.inj hsc), nofun⟩
  | none =>
    obtain ⟨sc, hdetect, hbuild⟩ := Option.bind_eq_some_iff.mp h
    obtain ⟨hscheme, hwf⟩ := build_wf hbuild
    exact ⟨hwf, nofun, fun _ => hscheme ▸ hdetect⟩

theorem loadCartridge_eq_some {image : List Byte} {scheme : Option Scheme}
    (h : loadCartridge image scheme s = some t) :
    ∃ c, Cartridge.load s.platform image scheme s.draws = some c ∧
      t = { s with cart := some c, observer := false, draws := s.draws + 1 } := by
  obtain ⟨c, hc, rfl⟩ := Option.map_eq_some_iff.mp h
  exact ⟨c, hc, rfl⟩

theorem loadCartridge_isSome_iff (sc : Scheme) (image : List Byte) (s : State) :
    (loadCartridge image (some sc) s).isSome = true ↔ sc.Takes image := by
  rw [loadCartridge, Option.isSome_map]
  exact build_isSome_iff sc image s.draws

theorem loadCartridge_none (image : List Byte) (s : State) :
    loadCartridge image none s = (detect s.platform image).bind (fun sc => loadCartridge image (some sc) s) :=
  Option.map_bind ..

theorem loadCartridge_nil (scheme : Option Scheme) (s : State) : loadCartridge [] scheme s = none := by
  have hdeclared : ∀ sc, loadCartridge [] (some sc) s = none := fun sc => congrArg (Option.map _) (build_nil sc s.draws)
  cases scheme with
  | some sc => exact hdeclared sc
  | none => rw [loadCartridge_none, funext hdeclared, Option.bind_fun_none]

/-- A hotspot scheme with an initial bank starts in it (R330). -/
theorem loadCartridge_initialBank {image : List Byte} {w banks b : Nat} {hot : List (Nat × Nat)} {onRead : Bool}
    {oob : Byte} (h : loadCartridge image (some (.hotspot w banks hot onRead (some b) oob)) s = some t) :
    t.cart.map Cartridge.bank = some (.index b) := by
  obtain ⟨c, hc, rfl⟩ := loadCartridge_eq_some h
  obtain ⟨-, hbuilt⟩ := Option.ite_none_right_eq_some.mp hc
  cases hbuilt
  rfl

/-- An image of 1 to `CART_WINDOW` bytes is the fixed small ROM (R322). -/
theorem detect_fixedRom {p : Platform} {image : List Byte} (hpos : 1 ≤ image.length)
    (hfits : image.length ≤ p.cartWindow) : detect p image = some (.fixedRom p.cartWindow p.cartPad) :=
  if_pos ⟨hpos, hfits⟩

/-- A longer one of whole loads is multi-load (R322). -/
theorem detect_multiLoad {p : Platform} {image : List Byte} (hlong : p.cartWindow < image.length)
    (hwhole : image.length % p.mlHeader.loadSize = 0) : detect p image = some (.multiLoad p.mlHeader) :=
  (if_neg fun h => Nat.not_le_of_lt hlong h.2).trans (if_pos ⟨Nat.zero_lt_of_lt hlong, hwhole⟩)

/-- Any other goes by the configured hotspot schemes (R322). -/
theorem detect_hotspot {p : Platform} {image : List Byte} (hlong : p.cartWindow < image.length)
    (hrest : image.length % p.mlHeader.loadSize ≠ 0) :
    detect p image = p.hotspots.find? (fun h => h.imageLength == some image.length) :=
  (if_neg fun h => Nat.not_le_of_lt hlong h.2).trans (if_neg fun h => hrest h.2)

/-- Settles O50: `load` by the conditions of each variant, `detect` by its three ranges of lengths. -/
theorem loadCartridge_detect : Obligations.LoadCartridge := by
  unfold Obligations.LoadCartridge
  refine fun image s => ⟨fun scheme t ht => ?answers, loadCartridge_none image s,
    fun hempty scheme => hempty ▸ loadCartridge_nil scheme s,
    fun w pad => loadCartridge_isSome_iff (.fixedRom w pad) image s,
    fun w banks hot onRead ib oob => ⟨loadCartridge_isSome_iff (.hotspot w banks hot onRead ib oob) image s,
      fun b t hib ht => loadCartridge_initialBank (hib ▸ ht)⟩,
    fun l => loadCartridge_isSome_iff (.multiLoad l) image s,
    fun p => ⟨detect_fixedRom, detect_multiLoad, fun hlong hrest => ?configured⟩⟩
  case answers =>
    obtain ⟨c, hc, rfl⟩ := loadCartridge_eq_some ht
    exact ⟨rfl, rfl, rfl, c, rfl, load_eq_some hc⟩
  case configured =>
    rw [detect_hotspot hlong hrest]
    refine ⟨fun sc hsc => ⟨List.mem_of_find?_eq_some hsc, by simpa using List.find?_some hsc⟩, ?_⟩
    simp only [List.find?_eq_none, beq_iff_eq, ne_eq]

end Sys2Proof.Machine
end

section
/-! One tick of the driving loop (R369, R78) with a chip that pushes nothing of its own: its chip cycles are executes of
the queue, before or after the clock step. -/

namespace Sys2Proof.Machine

open Sys2Proof.Spec

variable {s t : State}

/-! ## A clock step and `fatal` -/

/-- A cycle of a sequence leaves the sequencer idle or in `run`, never in `fatal` (R48). -/
theorem runCycle_not_fatal {sq : Seq} (ht : runCycle sq s = .next t) : t.phase ≠ .fatal := by
  rcases runCycle_phase ht with hidle | ⟨sq', hrun, -⟩
  · rw [hidle]
    nofun
  · rw [hrun]
    nofun

theorem firstCycle_not_fatal (ht : firstCycle s = .next t) : t.phase ≠ .fatal := by
  unfold firstCycle at ht
  split at ht
  · exact runCycle_not_fatal ht
  · unfold opcodeCycle at ht
    dsimp only at ht
    split at ht <;> cases ht
    nofun

/-- A clock step that answers a state has not halted the block (R48, R363). -/
theorem clockStep_not_fatal (hs : s.phase ≠ .fatal) (ht : clockStep s = .next t) : t.phase ≠ .fatal := by
  unfold clockStep at ht
  split at ht
  · contradiction
  · exact runCycle_not_fatal (settle_next.mp ht).1
  · exact firstCycle_not_fatal (settle_next.mp ht).1

/-! ## The chip cycles -/

/-- The agents of `n` chip cycles at `each = [queue, chip]` (R78). -/
def chipCycles (n : Nat) : List Agent := (List.replicate n [.queue, .chip]).flatten

/-- The handler's calls of one agent's step, in front of those of the agents after it. -/
def withCalls (calls : List (Nat × Byte)) :
    Host.Outcome (List (Nat × Byte) × State) Fault Refusal → Host.Outcome (List (Nat × Byte) × State) Fault Refusal
  | .next x => .next (calls ++ x.1, x.2)
  | .fault f => .fault f
  | .refused r => .refused r

theorem withCalls_nil (o : Host.Outcome (List (Nat × Byte) × State) Fault Refusal) : withCalls [] o = o := by
  cases o <;> rfl

theorem withCalls_append (cs ds : List (Nat × Byte)) (o : Host.Outcome (List (Nat × Byte) × State) Fault Refusal) :
    withCalls (cs ++ ds) o = withCalls cs (withCalls ds o) := by
  cases o with
  | next x => simp [withCalls]
  | fault f => rfl
  | refused r => rfl

/-- The queue's step is an `execute`, outside `fatal` (R306). -/
theorem runAgents_queue (chip : Nat → List PushRequest) (rest : List Agent) (k : Nat) (hs : s.phase ≠ .fatal) :
    runAgents chip (.queue :: rest) k s =
      withCalls s.dq.execute.1 (runAgents chip rest k { s with dq := s.dq.execute.2 }) := by
  have hexecute : executeQueue s = (s.dq.execute.1, { s with dq := s.dq.execute.2 }) := if_neg hs
  rw [runAgents, hexecute]
  cases runAgents chip rest k { s with dq := s.dq.execute.2 } <;> rfl

/-- A chip that pushes nothing changes nothing in its step (R312). -/
theorem runAgents_silentChip (rest : List Agent) (k : Nat) (s : State) :
    runAgents (fun _ => []) (.chip :: rest) k s = runAgents (fun _ => []) rest (k + 1) s := rfl

/-- `n` chip cycles whose chip pushes nothing are `n` executes, and then the other agents step (R312, R78). -/
theorem runAgents_chipCycles (n : Nat) (rest : List Agent) (k : Nat) (hs : s.phase ≠ .fatal) :
    runAgents (fun _ => []) (chipCycles n ++ rest) k s =
      withCalls (executes n s.dq).1
        (runAgents (fun _ => []) rest (k + n) { s with dq := (executes n s.dq).2 }) := by
  induction n generalizing k s with
  | zero => exact (withCalls_nil _).symm
  | succ n ih =>
    have hcycle : chipCycles (n + 1) ++ rest = .queue :: .chip :: (chipCycles n ++ rest) := rfl
    rw [hcycle, runAgents_queue _ _ k hs, runAgents_silentChip, ih (k + 1) (s := { s with dq := s.dq.execute.2 }) hs,
      ← withCalls_append, Nat.add_assoc, Nat.add_comm 1 n]
    rfl

/-- Where no agent follows, the chip cycles end the tick. -/
theorem runAgents_chipCycles_last (n k : Nat) (hs : s.phase ≠ .fatal) :
    runAgents (fun _ => []) (chipCycles n ++ []) k s =
      .next ((executes n s.dq).1, { s with dq := (executes n s.dq).2 }) := by
  rw [runAgents_chipCycles n [] k hs, runAgents, withCalls, List.append_nil]

/-- The clock step, as the agent that steps next. -/
theorem runAgents_cpu (chip : Nat → List PushRequest) (rest : List Agent) (k : Nat) (ht : clockStep s = .next t) :
    runAgents chip (.cpu :: rest) k s = runAgents chip rest k t := by
  rw [runAgents, ht]

theorem tick_of_not_fatal (chip : Nat → List PushRequest) (hs : s.phase ≠ .fatal) :
    tick chip s = runAgents chip (s.platform.driverOrder.agents s.platform.chipRatio) 0 s := if_neg hs

/-- Settles O54: the clock step before the chip cycles, or after them. -/
theorem tick_order : Obligations.Tick := by
  unfold Obligations.Tick
  refine fun s t hs => ⟨fun horder ht => ?cpuFirst, fun horder ht => ?cpuLast⟩
  case cpuFirst =>
    rw [tick_of_not_fatal _ hs, horder]
    exact (runAgents_cpu _ _ 0 ht).trans (runAgents_chipCycles_last _ 0 (clockStep_not_fatal hs ht))
  case cpuLast =>
    rw [tick_of_not_fatal _ hs, horder]
    refine (runAgents_chipCycles s.platform.chipRatio [.cpu] 0 hs).trans ?_
    rw [runAgents_cpu _ _ _ ht, runAgents, withCalls, List.append_nil]

end Sys2Proof.Machine
end
